-- ==== Sys2Proof/Word.lean ====
section
/-! DEFINITION. The bit-vector types of the block: bytes, 7-bit register addresses, 32-bit words and ticks, the 40-bit host command word (00_scope.md R10, 30_encoding.md R100, R110). -/

namespace Sys2Proof

/-- One byte: a device register, a FIFO cell, a bus byte (20_memory.md R61). -/
abbrev Byte := BitVec 8

/-- A device register address, 7 bits (30_encoding.md R100). -/
abbrev Addr := BitVec 7

/-- A 32-bit word: `res`, ticks, deadlines, frequencies in hertz. -/
abbrev Word32 := BitVec 32

/-- The host command word (30_encoding.md R110). -/
abbrev CmdWord := BitVec 40

/-- A Device Mode code (30_encoding.md R103). -/
abbrev ModeCode := BitVec 3

end Sys2Proof
end

