-- ==== Sys2Proof/Config.lean ====
section
/-! DEFINITION. What an implementation fixes (the parameter record of 00_scope.md R7), the moves of the environment (R16, R55), and the free values: opaque constants that no proof can see into. -/

namespace Sys2Proof

/-- The index of a sub-record, of its producer and of its sender: 0 suspension, 1 position, 2 engine,
3 brakes/accel, 4 temperature (00_scope.md R9). -/
inductive Sid where
  | s0 | s1 | s2 | s3 | s4
  deriving DecidableEq, Repr, Inhabited

/-- The number of the index, 0 to 4. -/
def Sid.toNat : Sid → Nat
  | .s0 => 0 | .s1 => 1 | .s2 => 2 | .s3 => 3 | .s4 => 4

/-- Five like things, one for each sender (00_scope.md R9). -/
structure Five (α : Type) where
  a0 : α
  a1 : α
  a2 : α
  a3 : α
  a4 : α
  deriving DecidableEq, Repr

/-- The element of an index. -/
def Five.get {α : Type} (v : Five α) : Sid → α
  | .s0 => v.a0 | .s1 => v.a1 | .s2 => v.a2 | .s3 => v.a3 | .s4 => v.a4

/-- Replace the element of one index. -/
def Five.set {α : Type} (v : Five α) (i : Sid) (x : α) : Five α :=
  match i with
  | .s0 => { v with a0 := x }
  | .s1 => { v with a1 := x }
  | .s2 => { v with a2 := x }
  | .s3 => { v with a3 := x }
  | .s4 => { v with a4 := x }

/-- Apply a function to every element, with its index. -/
def Five.imap {α β : Type} (f : Sid → α → β) (v : Five α) : Five β :=
  ⟨f .s0 v.a0, f .s1 v.a1, f .s2 v.a2, f .s3 v.a3, f .s4 v.a4⟩

/-- How a completion wait is carried out (43_packet_engine.md R220). -/
inductive CompletionMode where
  | poll
  | irq
  deriving DecidableEq, Repr

/-- The configuration record of 00_scope.md R7: fixed for a machine, never written by any step. The
last three fields are the model's switches: two the spec offers a model (20_memory.md R73, 60_exceptions.md R286), one
between two of its rules that disagree (log entry 7). -/
structure Config where
  oscHz : Nat
  aFifo : Addr
  aOpmode : Addr
  aFrfMsb : Addr
  aFrfMid : Addr
  aFrfLsb : Addr
  aPaConfig : Addr
  aFifoAddrPtr : Addr
  aFifoTxBase : Addr
  aFifoRxBase : Addr
  aFifoRxCurrent : Addr
  aIrqFlags : Addr
  aRxNbBytes : Addr
  aModemConfig1 : Addr
  aModemConfig2 : Addr
  aPreambleMsb : Addr
  aPreambleLsb : Addr
  aPayloadLength : Addr
  aModemConfig3 : Addr
  aPaDac : Addr
  fifoSize : Nat
  maxPayload : Nat
  txBaseInit : Byte
  rxBaseInit : Byte
  lowFreqMode : Bool
  completionMode : CompletionMode
  retryBound : Word32
  irqTimeoutMs : Word32
  modeAttempts : Byte
  /-- `none` is `INF`. -/
  lockTimeoutMs : Option Word32
  periodMs : Five Word32
  offsetMs : Five Word32
  pktId : Five Byte
  recLen : Five Nat
  paCfgMax : Byte
  paDacMax : Byte
  paDacDefault : Byte
  /-- Read as a signed number of dBm. -/
  pwrMaxDbm : Byte
  devTxAutoStandby : Bool
  /-- When set, a single read of one of the addresses the source does not name gives a free value
  (20_memory.md R73, "a model that wants to be safe"); when clear it gives what is stored there. -/
  unnamedReadsDraw : Bool
  /-- When set, the two fault injections of 60_exceptions.md R286 exist. -/
  deviceFaultInjection : Bool
  /-- When set, every error of RECEIVE leaves `res = 0`, as 43_packet_engine.md R215 says; when clear,
  ModeVerificationFailed leaves the byte read back, as 60_exceptions.md R270, R272 and R282 say (log entry 7). -/
  receiveErrorsClearRes : Bool
  deriving DecidableEq, Repr

/-- The configuration of the test vectors (95_test_vectors.md, conventions): the defaults of R7, and for
the OPEN parameters the test values R7 names. -/
def Config.testVectors : Config where
  oscHz := 32000000
  aFifo := 0x00
  aOpmode := 0x01
  aFrfMsb := 0x06
  aFrfMid := 0x07
  aFrfLsb := 0x08
  aPaConfig := 0x09
  aFifoAddrPtr := 0x0D
  aFifoTxBase := 0x0E
  aFifoRxBase := 0x0F
  aFifoRxCurrent := 0x10
  aIrqFlags := 0x12
  aRxNbBytes := 0x13
  aModemConfig1 := 0x1D
  aModemConfig2 := 0x1E
  aPreambleMsb := 0x20
  aPreambleLsb := 0x21
  aPayloadLength := 0x22
  aModemConfig3 := 0x26
  aPaDac := 0x4D
  fifoSize := 256
  maxPayload := 255
  txBaseInit := 0x00
  rxBaseInit := 0x00
  lowFreqMode := false
  completionMode := .poll
  retryBound := 3
  irqTimeoutMs := 100
  modeAttempts := 1
  lockTimeoutMs := none
  periodMs := ⟨20, 50, 100, 200, 1000⟩
  offsetMs := ⟨0, 0, 0, 0, 0⟩
  pktId := ⟨0x01, 0x02, 0x03, 0x04, 0x05⟩
  recLen := ⟨4, 8, 8, 6, 4⟩
  paCfgMax := 0xFF
  paDacMax := 0x87
  paDacDefault := 0x84
  pwrMaxDbm := 20
  devTxAutoStandby := false
  unnamedReadsDraw := false
  deviceFaultInjection := false
  receiveErrorsClearRes := false

/-- The 20 register addresses the source names (10_state.md R34). -/
def Config.namedAddrs (c : Config) : List Addr :=
  [c.aFifo, c.aOpmode, c.aFrfMsb, c.aFrfMid, c.aFrfLsb, c.aPaConfig, c.aFifoAddrPtr, c.aFifoTxBase,
   c.aFifoRxBase, c.aFifoRxCurrent] ++
  [c.aIrqFlags, c.aRxNbBytes, c.aModemConfig1, c.aModemConfig2, c.aPreambleMsb, c.aPreambleLsb,
   c.aPayloadLength, c.aModemConfig3, c.aPaDac]

/-- One move of one agent, with the environment's draws for it (00_scope.md R16, 60_exceptions.md R284 to
R291). A step of the machine is one such move; which move comes next is not the block's to choose. -/
inductive Event where
  /-- The command executor takes its next micro-step; `busFails` is the draw of R291 for its transaction. -/
  | exec (busFails : Bool)
  /-- Sender `i` takes its next step; `skip` chooses SKIP where ACQUIRE and SKIP are both enabled
  (60_exceptions.md R281 (g)); `busFails` as above. -/
  | sender (i : Sid) (skip : Bool) (busFails : Bool)
  /-- R284. -/
  | devTxDone
  /-- R285. -/
  | devRxDone (a : Byte) (bytes : List Byte) (crcOk : Bool)
  /-- R286, only under `deviceFaultInjection`. -/
  | devModeGlitch (v : Byte)
  /-- R286, only under `deviceFaultInjection`: `b` is a bit number of the flags register. -/
  | devFlag (b : BitVec 3)
  /-- The host presents a command word (R288). -/
  | present (w : CmdWord)
  /-- The host writes bytes of `hbuf` from index `at_` on (R288). -/
  | hbufWrite (at_ : Byte) (bytes : List Byte)
  /-- Producer `i` writes its whole sub-record (R289). -/
  | snapWrite (i : Sid) (bytes : List Byte)
  /-- R290. -/
  | tick
  /-- The block's reset input is pulsed (70_reset_and_hazards.md R310). -/
  | rst
  deriving DecidableEq, Repr, Inhabited

/-- FREE VALUE. The `n`-th byte the spec leaves unspecified (93_implementation_defined.md U1, U5, U9, U11, U14). -/
opaque Config.freeByte : Nat → Byte

/-- FREE VALUE. The `n`-th unspecified level of the select line (U1). -/
opaque Config.freeBool : Nat → Bool

/-- FREE VALUE. The move that comes next once the script of moves in the state is used up (R295: any enabled
step of any agent may be next; 44_arbiter_scheduler.md R251). -/
opaque Config.freeEvent : Nat → Event

end Sys2Proof
end

