-- ==== Sys2Proof/Machine/State.lean ====
section
/-! DEFINITION. The state of the machine (10_state.md R20 to R55) as plain data, the reasons a step can stop, and the state after reset (R54). -/

namespace Sys2Proof.Machine

/-- Contents of an address space: address and byte pairs, addresses strictly rising, no entry equal to what
an unlisted address reads as. -/
abbrev Memory := List Host.Cell

/-- The modem configuration tuple `x[0..6]` (10_state.md R21); `none` is the spec's own value `unset`. -/
structure ModemTuple where
  bw : Option (BitVec 4)
  sf : Option (BitVec 4)
  cr : Option (BitVec 3)
  crc : Option (BitVec 1)
  pre : Option (BitVec 16)
  freq : Option Word32
  pwr : Option Byte
  deriving DecidableEq, Repr

/-- `unset` for all seven (R21). -/
def ModemTuple.unset : ModemTuple := ⟨none, none, none, none, none, none, none⟩

/-- Where the command executor stands in the lock envelope (40_register_interface.md R137). -/
inductive HostPos where
  /-- Before E0: the command has just been accepted. -/
  | e0
  /-- Waiting at E2, with the deadline of a finite lock timeout. -/
  | e2 (deadline : Option Word32)
  /-- In the body, E3, holding the lock. -/
  | e3
  deriving DecidableEq, Repr

/-- The host command port and its status (10_state.md R23, R26). -/
structure HostPort where
  busy : Bool
  cmd : CmdWord
  res : Word32
  rlen : Byte
  hbuf : List Byte
  rbuf : List Byte
  status : Byte
  /-- The executor's place in the envelope, implied by R137. -/
  pos : HostPos
  deriving DecidableEq, Repr

/-- The `main` labels of the sequencer position (10_state.md R24). -/
inductive Main where
  | idle
  | cRd | cWr | cW2 | cW3
  | gR1 | gR2 | gR3
  | xTxn
  | iRst | iOpw | iOpv | iTxb | iRxb | iStby
  | tEns | tBase | tPtr | tFifo | tLen | tClr | tMode | tWait | tAck | tStby
  | rEns | rMode | rWait | rNb | rCur | rPtr | rFifo | rAck | rCrc | rStby
  | mCmd
  deriving DecidableEq, Repr

/-- The `sub` labels: the three steps of set_mode, or none (R24). -/
inductive Sub where
  | none
  | mRd | mWr | mVf
  deriving DecidableEq, Repr

/-- The sequencer position `(main, sub)` (R24). -/
structure Seq where
  main : Main
  sub : Sub
  deriving DecidableEq, Repr

/-- `(IDLE, NONE)`. -/
def Seq.idle : Seq := ⟨.idle, .none⟩

/-- The sequencer's working registers (10_state.md R25), and the three locals of the spec's pseudocode that
live from one micro-step to the next: `v` of set_mode (42_mode_controller.md R191), `h` or `a` and `b` of
the two-byte and three-byte getters (41_modem_configurator.md R166, R167). -/
structure PeRegs where
  cnt : Word32
  deadline : Word32
  attempt : Byte
  flags : Byte
  len : Byte
  tmp : Byte
  buf : List Byte
  modeByte : Byte
  getHi : Byte
  getMid : Byte
  deriving DecidableEq, Repr

/-- The Bus Lock's value (10_state.md R29). -/
inductive Owner where
  | none
  | s (i : Sid)
  | host
  deriving DecidableEq, Repr

/-- The phase of a sender (10_state.md R32). -/
inductive Phase where
  | off | sleeping | waitlock | copy | sending | release
  deriving DecidableEq, Repr

/-- The registers of one sender (R32). -/
structure Sender where
  phase : Phase
  nextWake : Word32
  lockDeadline : Word32
  buf : List Byte
  status : Byte
  deriving DecidableEq, Repr

/-- The transceiver's register file and FIFO (10_state.md R34, R35). -/
structure Device where
  reg : Memory
  fifo : Memory
  deriving DecidableEq, Repr

/-- The direction of a bus transaction (R53). -/
inductive BusKind where
  | rd
  | wr
  deriving DecidableEq, Repr

/-- One record of the bus transaction log (10_state.md R53). -/
structure TraceRec where
  kind : BusKind
  addr : Addr
  data : List Byte
  owner : Owner
  faulted : Bool
  deriving DecidableEq, Repr

/-- The bus master port (00_scope.md R4) inside a bracket: the address byte waiting to be driven, the data
bytes that follow it, how many bytes a read receives, and the bytes received last. The model's own
fields: a micro-step opens and closes its bracket in one step (40_register_interface.md R131), so no
bracket is open between steps. -/
structure BusPort where
  addrByte : Option Byte
  out : List Byte
  want : Byte
  inp : List Byte
  deriving DecidableEq, Repr

/-- The state of the machine (10_state.md R20). -/
structure State where
  /-- The parameters of 00_scope.md R7; no step writes them. -/
  cfg : Config
  /-- `x[0..6]`, R21. -/
  x : ModemTuple
  /-- R22. -/
  modeShadow : ModeCode
  /-- R23, R26. -/
  host : HostPort
  /-- R24. -/
  seq : Seq
  /-- R25. -/
  pe : PeRegs
  /-- R27. -/
  busFault : Bool
  /-- R28. -/
  irqLatch : Bool
  /-- R28. -/
  irqPrev : Bool
  /-- R29. -/
  lockOwner : Owner
  /-- R30. -/
  sel : Bool
  /-- R30. -/
  devRst : Bool
  /-- R31. -/
  now : Word32
  /-- R32. -/
  senders : Five Sender
  /-- R33. -/
  snap : Five (List Byte)
  /-- R34 to R52. -/
  dev : Device
  /-- R53, oldest first. -/
  trace : List TraceRec
  /-- The moves still to come, the model's own field: the first is the next step's (R55, R295). -/
  env : List Event
  /-- The draw of 60_exceptions.md R291 for the transaction of the running step, the model's own field. -/
  busFails : Bool
  /-- How many free values have been drawn, the model's own field. -/
  drawn : Nat
  /-- The model's own field. -/
  busPort : BusPort
  deriving DecidableEq, Repr

/-- Why the machine stops in a place the spec gives no continuation for. Each is safe: the model stops. -/
inductive Fault where
  /-- Raised by a bus transaction requested while no requester holds the Bus Lock, against the precondition
  of 40_register_interface.md R132 to R135. No run of the block reaches it (44_arbiter_scheduler.md R252).
  Safe. -/
  | busWithoutLock
  /-- Raised by a command or a sender whose sequencer position is none of its own micro-steps; the spec gives
  such a position no successor (10_state.md R24). No run of the block reaches it. Safe. -/
  | badMicroStep
  /-- Raised by a transaction at the FIFO register while the pointer holds a value outside
  `0 .. FIFO_SIZE - 1`, where the FIFO has no cell (10_state.md R35); impossible with the default
  `FIFO_SIZE = 256`. Safe. -/
  | fifoPointerOutside
  deriving DecidableEq, Repr

/-- Why an instruction has no meaning. Each is safe: the model stops. -/
inductive Refusal where
  /-- Raised by an arm of `exec` whose instruction is not modelled. Safe. -/
  | notModelled (mnemonic : String)
  /-- Raised by a burst of two or more bytes at an address other than the FIFO register, to which the spec
  gives no meaning: treatment `refuse` (20_memory.md R74, 93_implementation_defined.md U4). Safe. -/
  | burstOffFifo
  deriving DecidableEq, Repr

/-- The errors an operation can raise (60_exceptions.md R270). -/
inductive Err where
  | busFault
  /-- With the byte read back. -/
  | modeVerificationFailed (readBack : Byte)
  | invalidPayload
  | transmitTimeout
  | receiveTimeout
  | payloadCrcError
  | illegalCommand
  | lockTimeout
  deriving DecidableEq, Repr

/-- The device registers at power-on: the family's values of 93_implementation_defined.md G9 at the default
addresses, every other register 0. PRESUMED (log entry 2): the spec leaves them unspecified (R54). -/
def powerOnRegs : Memory :=
  [(0x01, 0x09), (0x06, 0x6C), (0x07, 0x80), (0x09, 0x4F), (0x0E, 0x80)] ++
  [(0x1D, 0x72), (0x1E, 0x70), (0x21, 0x08), (0x22, 0x01), (0x4D, 0x84)]

/-- The value of a byte buffer at reset, unspecified by the spec (R54): zeros. DESIGN CHOICE (log entry 3). -/
def resetBuffer (n : Nat) : List Byte := List.replicate n 0

/-- A sender's registers at reset (R54). -/
def resetSender (c : Config) (i : Sid) : Sender where
  phase := .off
  nextWake := 0
  lockDeadline := 0
  buf := resetBuffer (c.recLen.get i)
  status := 0

/-- One value for each sender. -/
def fiveOf {α : Type} (f : Sid → α) : Five α := ⟨f .s0, f .s1, f .s2, f .s3, f .s4⟩

/-- The machine after reset, for a configuration (10_state.md R54). -/
def State.resetWith (c : Config) : State where
  cfg := c
  x := .unset
  modeShadow := 0
  host :=
    { busy := false, cmd := 0, res := 0, rlen := 0, hbuf := resetBuffer 255, rbuf := resetBuffer 255,
      status := 0, pos := .e0 }
  seq := .idle
  pe :=
    { cnt := 0, deadline := 0, attempt := 0, flags := 0, len := 0, tmp := 0, buf := resetBuffer 255,
      modeByte := 0, getHi := 0, getMid := 0 }
  busFault := false
  irqLatch := false
  irqPrev := false
  lockOwner := .none
  sel := false
  devRst := false
  now := 0
  senders := fiveOf (resetSender c)
  snap := fiveOf (fun i => List.replicate (c.recLen.get i) 0)
  dev := { reg := powerOnRegs, fifo := [] }
  trace := []
  env := []
  busFails := false
  drawn := 0
  busPort := { addrByte := none, out := [], want := 0, inp := [] }

/-- The machine after reset, under the configuration of the test vectors (95_test_vectors.md). -/
def State.reset : State := State.resetWith Config.testVectors

end Sys2Proof.Machine
end

