-- ==== Sys2Proof/Machine/Memory.lean ====
section
/-! DEFINITION. Memory as sorted address and byte pairs, its canonical form, and the reads and writes of the device FIFO through the pointer (20_memory.md R60 to R69). -/

namespace Sys2Proof.Machine

/-- What an unlisted address reads as. DESIGN CHOICE (log entry 2): the spec leaves power-on contents
unspecified (10_state.md R54). -/
def Memory.unlisted : Byte := 0

/-- The byte at an address. -/
def Memory.read : Memory → Nat → Byte
  | [], _ => Memory.unlisted
  | c :: m, a => if c.1 = a then c.2 else Memory.read m a

/-- Put an entry in front of the first entry with a larger address. -/
def Memory.insert : Memory → Nat → Byte → Memory
  | [], a, v => [(a, v)]
  | c :: m, a, v => if a < c.1 then (a, v) :: c :: m else c :: Memory.insert m a v

/-- The memory without an entry for an address. -/
def Memory.remove (m : Memory) (a : Nat) : Memory := m.filter (fun c => c.1 != a)

/-- Write one byte, keeping the canonical form. -/
def Memory.write (m : Memory) (a : Nat) (v : Byte) : Memory :=
  if v = Memory.unlisted then m.remove a else (m.remove a).insert a v

/-- The memory whose `n` addresses from `a` on hold the bytes `f` gives them. -/
def Memory.fillFrom (f : Nat → Byte) : Nat → Nat → Memory
  | _, 0 => []
  | a, n + 1 =>
    if f a = Memory.unlisted then Memory.fillFrom f (a + 1) n
    else (a, f a) :: Memory.fillFrom f (a + 1) n

/-- The memory of size `n` whose addresses hold the bytes `f` gives them. -/
def Memory.fill (f : Nat → Byte) (n : Nat) : Memory := Memory.fillFrom f 0 n

/-- The canonical form: addresses strictly rising, and no entry equal to what an unlisted address reads as. -/
def Memory.wf (m : Memory) : Bool :=
  decide (m.Pairwise (fun c d => c.1 < d.1)) && m.all (fun c => c.2 != Memory.unlisted)

/-- Every address lies inside a space of `n` addresses. -/
def Memory.inside (m : Memory) (n : Nat) : Bool := m.all (fun c => decide (c.1 < n))

/-- The pointer after one FIFO access (20_memory.md R69). -/
def fifoNext (size p : Nat) : Nat := (p + 1) % size

/-- The bytes of `n` FIFO cells from a pointer on (20_memory.md R67). -/
def fifoRead (size : Nat) (m : Memory) : Nat → Nat → List Byte
  | _, 0 => []
  | p, n + 1 => m.read p :: fifoRead size m (fifoNext size p) n

/-- The FIFO after bytes are stored from a pointer on (20_memory.md R68). -/
def fifoWrite (size : Nat) : Memory → Nat → List Byte → Memory
  | m, _, [] => m
  | m, p, b :: bs => fifoWrite size (m.write p b) (fifoNext size p) bs

/-- The pointer after `n` FIFO accesses (R67). -/
def fifoPtrAfter (size : Nat) : Nat → Nat → Nat
  | p, 0 => p
  | p, n + 1 => fifoPtrAfter size (fifoNext size p) n

/-- `dst[0..len(src)-1] <- src`: the front of a buffer replaced, the rest kept. -/
def overlay (dst src : List Byte) : List Byte := src ++ dst.drop src.length

end Sys2Proof.Machine
end

