-- ==== Sys2Proof/Syntax.lean ====
section
/-! DEFINITION. The commands and bus transactions of the block: one constructor per row of spec/opcode_table.json (23 host commands, 30_encoding.md R110; two bus transaction kinds, R100). -/

namespace Sys2Proof

/-- An instruction of the block. Every operand has exactly the width the row gives it (30_encoding.md R111,
R112), so a term holds every operand value the encoding admits and no other. -/
inductive Instr where
  /-- RDREG, 40_register_interface.md R138. -/
  | rdreg (addr : Addr)
  /-- WRREG, R139. -/
  | wrreg (addr : Addr) (data : Byte)
  /-- RDBURST, R140. -/
  | rdburst (addr : Addr) (n : Byte)
  /-- WRBURST, R141; the bytes are in `hbuf`. -/
  | wrburst (addr : Addr) (n : Byte)
  /-- SETSF, 41_modem_configurator.md R152. -/
  | setsf (v : Byte)
  /-- SETBW, R153. -/
  | setbw (v : Byte)
  /-- SETCR, R154. -/
  | setcr (v : Byte)
  /-- SETCRC, R155. -/
  | setcrc (en : BitVec 1)
  /-- SETPRE, R156. -/
  | setpre (n : BitVec 16)
  /-- SETFREQ, R158. -/
  | setfreq (f : Word32)
  /-- SETPWR, R160; `dbm` is read as signed. -/
  | setpwr (dbm : Byte)
  /-- GETSF, R162. -/
  | getsf
  /-- GETBW, R163. -/
  | getbw
  /-- GETCR, R164. -/
  | getcr
  /-- GETCRC, R165. -/
  | getcrc
  /-- GETPRE, R166. -/
  | getpre
  /-- GETFREQ, R167. -/
  | getfreq
  /-- SETMODE, 42_mode_controller.md R192. -/
  | setmode (m : ModeCode)
  /-- ISMODE, R193. -/
  | ismode (m : ModeCode)
  /-- INIT, R195. -/
  | init
  /-- TRANSMIT, 43_packet_engine.md R211; the payload is in `hbuf`. -/
  | transmit (len : BitVec 16)
  /-- RECEIVE, R215. -/
  | receive
  /-- SCHSTART, 44_arbiter_scheduler.md R241. -/
  | schstart (mask : BitVec 5)
  /-- BUS.RD, a read transaction on the device bus (30_encoding.md R100, 40_register_interface.md R132, R134). -/
  | busRd (addr : Addr)
  /-- BUS.WR, a write transaction on the device bus (R100, R133, R135). -/
  | busWr (addr : Addr)
  deriving DecidableEq, Repr

end Sys2Proof
end

