-- ==== Sys2Proof/Decode.lean ====
section
/-! DEFINITION. The decoder of the host command word and of the bus address byte, total, rejecting by name, and after it the encoder, both from the tables of 30_encoding.md R100, R110, R111. -/

namespace Sys2Proof

/-- Why a command word is illegal (30_encoding.md R113). -/
inductive DecodeError where
  /-- `op` is none of the 23 opcodes of R110. -/
  | unknownOpcode
  /-- A bit of `arg` that R111 reserves is not 0. -/
  | reservedBits
  deriving DecidableEq, Repr

/-- The operand field `cmd[6:0]` (R111, CA, CW, CB). -/
def argAddr (arg : Word32) : Addr := arg.extractLsb' 0 7

/-- The operand field `cmd[15:8]` (R111, CW, CB). -/
def argHigh (arg : Word32) : Byte := arg.extractLsb' 8 8

/-- One row of the command table (R110): opcode, the bits of `arg` that must be 0 (R111), and the
instruction the operand fields give. -/
structure CmdRow where
  op : Byte
  reserved : Word32
  build : Word32 → Instr

/-- The reserved bits of `arg` in each sub-format (R111). -/
def reservedC0 : Word32 := 0xFFFFFFFF
@[inherit_doc reservedC0] def reservedC1 : Word32 := 0xFFFFFFFE
@[inherit_doc reservedC0] def reservedC3 : Word32 := 0xFFFFFFF8
@[inherit_doc reservedC0] def reservedC5 : Word32 := 0xFFFFFFE0
@[inherit_doc reservedC0] def reservedC8 : Word32 := 0xFFFFFF00
@[inherit_doc reservedC0] def reservedC16 : Word32 := 0xFFFF0000
@[inherit_doc reservedC0] def reservedC32 : Word32 := 0x00000000
@[inherit_doc reservedC0] def reservedCA : Word32 := 0xFFFFFF80
@[inherit_doc reservedC0] def reservedCW : Word32 := 0xFFFF0080
@[inherit_doc reservedC0] def reservedCB : Word32 := 0xFFFF0080

/-- The rows of the Register Interface (R110). -/
def riRows : List CmdRow :=
  [⟨0x10, reservedCA, fun a => .rdreg (argAddr a)⟩,
   ⟨0x11, reservedCW, fun a => .wrreg (argAddr a) (argHigh a)⟩,
   ⟨0x12, reservedCB, fun a => .rdburst (argAddr a) (argHigh a)⟩,
   ⟨0x13, reservedCB, fun a => .wrburst (argAddr a) (argHigh a)⟩]

/-- The setter rows of the Modem Configurator (R110). -/
def setterRows : List CmdRow :=
  [⟨0x20, reservedC8, fun a => .setsf (a.extractLsb' 0 8)⟩,
   ⟨0x21, reservedC8, fun a => .setbw (a.extractLsb' 0 8)⟩,
   ⟨0x22, reservedC8, fun a => .setcr (a.extractLsb' 0 8)⟩,
   ⟨0x23, reservedC1, fun a => .setcrc (a.extractLsb' 0 1)⟩,
   ⟨0x24, reservedC16, fun a => .setpre (a.extractLsb' 0 16)⟩,
   ⟨0x25, reservedC32, fun a => .setfreq a⟩,
   ⟨0x26, reservedC8, fun a => .setpwr (a.extractLsb' 0 8)⟩]

/-- The getter rows of the Modem Configurator (R110). -/
def getterRows : List CmdRow :=
  [⟨0x28, reservedC0, fun _ => .getsf⟩,
   ⟨0x29, reservedC0, fun _ => .getbw⟩,
   ⟨0x2A, reservedC0, fun _ => .getcr⟩,
   ⟨0x2B, reservedC0, fun _ => .getcrc⟩,
   ⟨0x2C, reservedC0, fun _ => .getpre⟩,
   ⟨0x2D, reservedC0, fun _ => .getfreq⟩]

/-- The rows of the Mode Controller, the Packet Engine and the Arbiter (R110). -/
def controlRows : List CmdRow :=
  [⟨0x30, reservedC3, fun a => .setmode (a.extractLsb' 0 3)⟩,
   ⟨0x31, reservedC3, fun a => .ismode (a.extractLsb' 0 3)⟩,
   ⟨0x32, reservedC0, fun _ => .init⟩,
   ⟨0x40, reservedC16, fun a => .transmit (a.extractLsb' 0 16)⟩,
   ⟨0x41, reservedC0, fun _ => .receive⟩,
   ⟨0x50, reservedC5, fun a => .schstart (a.extractLsb' 0 5)⟩]

/-- The command table (R110), 23 rows. -/
def cmdRows : List CmdRow := riRows ++ setterRows ++ getterRows ++ controlRows

/-- `op = cmd[39:32]` (R110). -/
def cmdOp (w : CmdWord) : Byte := w.extractLsb' 32 8

/-- `arg = cmd[31:0]` (R110). -/
def cmdArg (w : CmdWord) : Word32 := w.extractLsb' 0 32

/-- Decode a host command word: look the opcode up, check the reserved bits, extract the fields (R114). -/
def decodeCmd (w : CmdWord) : Except DecodeError Instr :=
  match cmdRows.find? (fun r => r.op == cmdOp w) with
  | none => .error .unknownOpcode
  | some r => if cmdArg w &&& r.reserved = 0 then .ok (r.build (cmdArg w)) else .error .reservedBits

/-- Decode the address byte of a bus transaction: bit 7 is the direction, bits 6:0 the register address;
all 256 bytes are meaningful (R100). -/
def decodeBus (b : Byte) : Instr :=
  if b.getLsbD 7 then .busWr (b.extractLsb' 0 7) else .busRd (b.extractLsb' 0 7)

/-- A word as spec/opcode_table.json numbers it: its number of bits and its bits, bit 0 least significant. -/
structure TableWord where
  nbits : Nat
  bits : Nat
  deriving DecidableEq, Repr

/-- A host command word is one 40-bit value on the port, with no byte order (20_memory.md R75 (f)); a bus
address byte is 8 bits. No operand stands outside these bits. -/
def decodeTableWord (nbits w : Nat) : Option Instr :=
  if nbits = 40 ∧ w < 2 ^ 40 then
    match decodeCmd (BitVec.ofNat 40 w) with
    | .ok i => some i
    | .error _ => none
  else if nbits = 8 ∧ w < 2 ^ 8 then some (decodeBus (BitVec.ofNat 8 w))
  else none

/-- A command word from its opcode and `arg` (R110). -/
def cmdWord (op : Byte) (arg : Word32) : CmdWord := op ++ arg

/-- `arg` of sub-formats CW and CB (R111). -/
def argAddrHigh (addr : Addr) (hi : Byte) : Word32 := (hi ++ (0 : BitVec 1) ++ addr).setWidth 32

/-- The command word of a host command (R110, R111); none for the two bus transaction kinds. -/
def encodeCmd : Instr → Option CmdWord
  | .rdreg a => some (cmdWord 0x10 (a.setWidth 32))
  | .wrreg a d => some (cmdWord 0x11 (argAddrHigh a d))
  | .rdburst a n => some (cmdWord 0x12 (argAddrHigh a n))
  | .wrburst a n => some (cmdWord 0x13 (argAddrHigh a n))
  | .setsf v => some (cmdWord 0x20 (v.setWidth 32))
  | .setbw v => some (cmdWord 0x21 (v.setWidth 32))
  | .setcr v => some (cmdWord 0x22 (v.setWidth 32))
  | .setcrc e => some (cmdWord 0x23 (e.setWidth 32))
  | .setpre n => some (cmdWord 0x24 (n.setWidth 32))
  | .setfreq f => some (cmdWord 0x25 f)
  | .setpwr d => some (cmdWord 0x26 (d.setWidth 32))
  | .getsf => some (cmdWord 0x28 0)
  | .getbw => some (cmdWord 0x29 0)
  | .getcr => some (cmdWord 0x2A 0)
  | .getcrc => some (cmdWord 0x2B 0)
  | .getpre => some (cmdWord 0x2C 0)
  | .getfreq => some (cmdWord 0x2D 0)
  | .setmode m => some (cmdWord 0x30 (m.setWidth 32))
  | .ismode m => some (cmdWord 0x31 (m.setWidth 32))
  | .init => some (cmdWord 0x32 0)
  | .transmit n => some (cmdWord 0x40 (n.setWidth 32))
  | .receive => some (cmdWord 0x41 0)
  | .schstart m => some (cmdWord 0x50 (m.setWidth 32))
  | .busRd _ => none
  | .busWr _ => none

/-- The address byte of a read transaction, `a & 0x7F` (R101). -/
def readAddrByte (a : Addr) : Byte := (0 : BitVec 1) ++ a

/-- The address byte of a write transaction, `a | 0x80` (R101). -/
def writeAddrByte (a : Addr) : Byte := (1 : BitVec 1) ++ a

/-- The address byte of a bus transaction kind; none for a host command. -/
def encodeBus : Instr → Option Byte
  | .busRd a => some (readAddrByte a)
  | .busWr a => some (writeAddrByte a)
  | _ => none

/-- The table word of an instruction. -/
def encode (i : Instr) : TableWord :=
  match encodeCmd i with
  | some w => ⟨40, w.toNat⟩
  | none =>
    match encodeBus i with
    | some b => ⟨8, b.toNat⟩
    | none => ⟨0, 0⟩

end Sys2Proof
end

