-- ==== Sys2Proof/Machine/Operands.lean ====
section
/-! DEFINITION. Operand forms and arithmetic: clamping, field insertion and extraction, the frequency function and its inverse, the power setting, the operating-mode byte, time comparison (41_modem_configurator.md R150 to R169, 30_encoding.md R102 to R109, 44_arbiter_scheduler.md R250). -/

namespace Sys2Proof.Machine

/-- Sleep, code 0 (30_encoding.md R103). -/
def modeSleep : ModeCode := 0
/-- Standby, code 1 (R103). -/
def modeStdby : ModeCode := 1
/-- Transmit, code 3 (R103). -/
def modeTx : ModeCode := 3
/-- Receive-Continuous, code 5 (R103). -/
def modeRxCont : ModeCode := 5
/-- Receive-Single, code 6 (R103). -/
def modeRxSingle : ModeCode := 6

/-- `clamp(v, lo, hi)` of 00_scope.md R10, on the zero-extended operand (41_modem_configurator.md R169). -/
def clampByte (v : Byte) (lo hi : Nat) : Byte :=
  if v.toNat < lo then BitVec.ofNat 8 lo else if hi < v.toNat then BitVec.ofNat 8 hi else v

/-- The spreading factor SETSF writes (R152). -/
def clampSf (v : Byte) : Byte := clampByte v 6 12

/-- The bandwidth code SETBW writes (R153). -/
def clampBw (v : Byte) : Byte := clampByte v 0 9

/-- The coding-rate code SETCR writes (R154). -/
def clampCr (v : Byte) : Byte := clampByte v 1 4

/-- Masks of the fields of modem-configuration registers 1 and 2 (30_encoding.md R104, R105). -/
def maskBw : Byte := 0xF0
@[inherit_doc maskBw] def maskCr : Byte := 0x0E
@[inherit_doc maskBw] def maskSf : Byte := 0xF0
@[inherit_doc maskBw] def maskCrc : Byte := 0x04

/-- The byte a field RMW writes back (41_modem_configurator.md R151). -/
def insertField (old mask : Byte) (pos : Nat) (val : Byte) : Byte :=
  (old &&& ~~~mask) ||| ((val <<< pos) &&& mask)

/-- The mode field of the operating-mode byte (30_encoding.md R102). -/
def modeField (b : Byte) : ModeCode := b.extractLsb' 0 3

/-- The operating-mode byte with its mode field replaced, bits 7:3 kept (42_mode_controller.md R191). -/
def withMode (b : Byte) (m : ModeCode) : Byte := (b &&& ~~~(0x07 : Byte)) ||| m.setWidth 8

/-- `OPMODE_INIT = 0x80 | (LOW_FREQ_MODE << 3) | 0` (30_encoding.md R102). -/
def opmodeInit (c : Config) : Byte := 0x80 ||| (if c.lowFreqMode then 0x08 else 0x00)

/-- The three named fields of the operating-mode byte, the mask of INIT's check (42_mode_controller.md R195). -/
def opmodeInitMask : Byte := 0x8F

/-- The frequency register value (41_modem_configurator.md R157), exact. -/
def frf (f osc : Nat) : Nat := min ((f * 2 ^ 20 + osc) / (2 * osc)) (2 ^ 24 - 1)

/-- The inverse function (R159), exact. -/
def freqOf (v osc : Nat) : Nat := min ((v * osc + 2 ^ 18) / 2 ^ 19) (2 ^ 32 - 1)

/-- The 24-bit frequency register value of SETFREQ (R158). -/
def frfOf (c : Config) (f : Word32) : BitVec 24 := BitVec.ofNat 24 (frf f.toNat c.oscHz)

/-- The result of GETFREQ for three register bytes, most significant first (R167). -/
def freqOfBytes (c : Config) (msb mid lsb : Byte) : Word32 :=
  BitVec.ofNat 32 (freqOf (msb ++ mid ++ lsb).toNat c.oscHz)

/-- The valid power setting nearest to `d` dBm: 2 to 17 and the maximum, a tie going to the lower setting
(R160). -/
def nearestPower (d max : Int) : Int :=
  let low := if d < 2 then 2 else if 17 < d then 17 else d
  let dl := (d - low).natAbs
  let dm := (d - max).natAbs
  if dm < dl then max else if dl < dm then low else min low max

/-- The power setting SETPWR selects, as a signed byte (R160). -/
def powerSetting (c : Config) (dbm : Byte) : Byte := BitVec.ofInt 8 (nearestPower dbm.toInt c.pwrMaxDbm.toInt)

/-- The byte SETPWR writes to the power-amplifier configuration register (R160). -/
def paConfigByte (c : Config) (p : Byte) : Byte := if p = c.pwrMaxDbm then c.paCfgMax else 0x80 ||| (p - 2)

/-- The byte SETPWR writes to the auxiliary power-amplifier register (R160). -/
def paDacByte (c : Config) (p : Byte) : Byte := if p = c.pwrMaxDbm then c.paDacMax else c.paDacDefault

/-- `time_reached(now, t) = ((now - t) mod 2^32) < 2^31` (44_arbiter_scheduler.md R250). -/
def timeReached (now t : Word32) : Bool := decide ((now - t).toNat < 2 ^ 31)

/-- Whether an optional deadline has been reached; `none` is no deadline (40_register_interface.md R137). -/
def deadlineReached (now : Word32) : Option Word32 → Bool
  | none => false
  | some t => timeReached now t

/-- The deadline of a wait that starts now, for a timeout that may be `INF` (R137 E2). -/
def lockDeadlineAt (now : Word32) : Option Word32 → Option Word32
  | none => none
  | some t => some (now + t)

/-- Five bits as a number, bit `i` for sender `i` (44_arbiter_scheduler.md R241). -/
def senderBits (b : Five Bool) : Word32 :=
  (BitVec.ofBool b.a4 ++ BitVec.ofBool b.a3 ++ BitVec.ofBool b.a2 ++ BitVec.ofBool b.a1 ++ BitVec.ofBool b.a0).setWidth 32

end Sys2Proof.Machine
end

