-- ==== Sys2Proof/Machine/Flags.lean ====
section
/-! DEFINITION. Flags: the completion codes and recorded info of errors (60_exceptions.md R270), the device interrupt flags and the edge logic of the interrupt line (R279, R280; 20_memory.md R70). -/

namespace Sys2Proof.Machine

/-- The completion code OK (60_exceptions.md R270). -/
def codeOk : Byte := 0

/-- The completion code of an error (R270). -/
def Err.code : Err → Byte
  | .busFault => 1
  | .modeVerificationFailed _ => 2
  | .invalidPayload => 3
  | .transmitTimeout => 4
  | .receiveTimeout => 5
  | .payloadCrcError => 6
  | .illegalCommand => 7
  | .lockTimeout => 8

/-- What `res` records for an error of a host command (R270). -/
def Err.info : Err → Word32
  | .modeVerificationFailed r => r.setWidth 32
  | .busFault | .invalidPayload | .transmitTimeout | .receiveTimeout => 0
  | .payloadCrcError | .illegalCommand | .lockTimeout => 0

/-- TX-done, bit 3 of the interrupt flags (30_encoding.md R108). -/
def flagTxDone : Byte := 0x08
/-- RX-done, bit 6 (R108). -/
def flagRxDone : Byte := 0x40
/-- Payload CRC error, bit 5 (R108). -/
def flagCrcErr : Byte := 0x20

/-- One device register. -/
def State.devReg (s : State) (a : Addr) : Byte := s.dev.reg.read a.toNat

/-- One FIFO cell. -/
def State.devFifo (s : State) (k : Nat) : Byte := s.dev.fifo.read k

/-- Store a byte in a device register, with no other effect (20_memory.md R66). -/
def State.putReg (s : State) (a : Addr) (v : Byte) : State :=
  { s with dev := { s.dev with reg := s.dev.reg.write a.toNat v } }

/-- The device interrupt flags. -/
def State.flags (s : State) : Byte := s.devReg s.cfg.aIrqFlags

/-- The level of `dev_irq`: high while TX-done or RX-done is set (60_exceptions.md R279). -/
def State.devIrq (s : State) : Bool := s.flags &&& (flagTxDone ||| flagRxDone) != 0

/-- One observation of the interrupt line: latch a rising edge, remember the level (R280, 10_state.md R28). -/
def State.observeIrq (s : State) : State :=
  { s with irqLatch := s.irqLatch || (s.devIrq && !s.irqPrev), irqPrev := s.devIrq }

/-- Give the flags register a new value; the input logic observes the line in the same step exactly when the
register changes (R280). -/
def State.setFlags (s : State) (v : Byte) : State :=
  if v = s.flags then s else (s.putReg s.cfg.aIrqFlags v).observeIrq

/-- A bus write of the flags register: each bit written as 1 is cleared (20_memory.md R70). -/
def State.clearFlags (s : State) (v : Byte) : State := s.setFlags (s.flags &&& ~~~v)

/-- A device event that sets flag bits (R284, R285). -/
def State.raiseFlags (s : State) (v : Byte) : State := s.setFlags (s.flags ||| v)

/-- The mode field of the device's operating-mode register (30_encoding.md R102). -/
def State.devMode (s : State) : ModeCode := modeField (s.devReg s.cfg.aOpmode)

end Sys2Proof.Machine
end

