-- ==== Sys2Proof/Machine/Device.lean ====
section
/-! DEFINITION. The reference device: what a transaction does to the register file and the FIFO (20_memory.md R66 to R74), the device's own events (60_exceptions.md R284 to R286), its reset pulse (R287), and what a failed transaction leaves of it (40_register_interface.md R136). -/

namespace Sys2Proof.Machine

/-- Free bytes number `d` to `d + n - 1`. -/
def freeBytes (d n : Nat) : List Byte := (List.range n).map (fun k => Config.freeByte (d + k))

/-- What the device does in a transaction. -/
inductive DevResult where
  | done (bytes : List Byte) (s : State)
  | fault (f : Fault)
  | refused (r : Refusal)

/-- The FIFO address pointer (20_memory.md R62). -/
def State.fifoPtr (s : State) : Nat := (s.devReg s.cfg.aFifoAddrPtr).toNat

/-- Leave the FIFO pointer at a value. -/
def State.setFifoPtr (s : State) (p : Nat) : State := s.putReg s.cfg.aFifoAddrPtr (BitVec.ofNat 8 p)

/-- A read of `n` bytes at the FIFO register (20_memory.md R67). -/
def devFifoRead (n : Nat) (s : State) : DevResult :=
  if s.fifoPtr < s.cfg.fifoSize then
    .done (fifoRead s.cfg.fifoSize s.dev.fifo s.fifoPtr n) (s.setFifoPtr (fifoPtrAfter s.cfg.fifoSize s.fifoPtr n))
  else .fault .fifoPointerOutside

/-- A write of bytes at the FIFO register (20_memory.md R68). -/
def devFifoWrite (data : List Byte) (s : State) : DevResult :=
  if s.fifoPtr < s.cfg.fifoSize then
    .done []
      (({ s with dev := { s.dev with fifo := fifoWrite s.cfg.fifoSize s.dev.fifo s.fifoPtr data } }).setFifoPtr
        (fifoPtrAfter s.cfg.fifoSize s.fifoPtr data.length))
  else .fault .fifoPointerOutside

/-- A single read at an address other than the FIFO register (20_memory.md R66, R73). -/
def devRegRead (a : Addr) (s : State) : DevResult :=
  if s.cfg.unnamedReadsDraw && !s.cfg.namedAddrs.contains a then
    .done [Config.freeByte s.drawn] { s with drawn := s.drawn + 1 }
  else .done [s.devReg a] s

/-- A single write at an address other than the FIFO register (20_memory.md R66, R70, R71). -/
def devRegWrite (a : Addr) (v : Byte) (s : State) : State :=
  if a = s.cfg.aIrqFlags then s.clearFlags v
  else if a = s.cfg.aFifoRxCurrent ∨ a = s.cfg.aRxNbBytes then
    { s.putReg a (Config.freeByte s.drawn) with drawn := s.drawn + 1 }
  else s.putReg a v

/-- The device's part of a read transaction of `n` bytes (R66, R67, R74). -/
def devRead (a : Addr) (n : Nat) (s : State) : DevResult :=
  if a = s.cfg.aFifo then devFifoRead n s
  else if n = 1 then devRegRead a s
  else .refused .burstOffFifo

/-- The device's part of a write transaction (R66, R68, R70, R71, R74). -/
def devWrite (a : Addr) (data : List Byte) (s : State) : DevResult :=
  if a = s.cfg.aFifo then devFifoWrite data s
  else
    match data with
    | [v] => .done [] (devRegWrite a v s)
    | _ => .refused .burstOffFifo

/-- Every device register and FIFO cell becomes a free value (R136, R287). -/
def State.drawDevice (s : State) : State :=
  { s with
    dev :=
      { reg := Memory.fill (fun k => Config.freeByte (s.drawn + k)) 128,
        fifo := Memory.fill (fun k => Config.freeByte (s.drawn + 128 + k)) s.cfg.fifoSize },
    drawn := s.drawn + 128 + s.cfg.fifoSize }

/-- What a failed transaction leaves: the fault bit set; the select line, the registers and the FIFO free
values (40_register_interface.md R136); the interrupt line observed if the flags changed (60_exceptions.md R280). -/
def State.busBroken (s : State) : State :=
  let t := { s.drawDevice with busFault := true, sel := Config.freeBool s.drawn }
  if t.flags = s.flags then t else t.observeIrq

/-- The device reset pulse: everything a free value, the flags 0, the line observed (60_exceptions.md R287). -/
def State.devReset (s : State) : State := (s.drawDevice.putReg s.cfg.aIrqFlags 0).observeIrq

/-- DevTxDone (R284); no step when it is not enabled. -/
def devTxDone (s : State) : State :=
  if s.devMode = modeTx then
    let t := s.raiseFlags flagTxDone
    if t.cfg.devTxAutoStandby then t.putReg t.cfg.aOpmode (withMode (t.devReg t.cfg.aOpmode) modeStdby) else t
  else s

/-- The flags a reception sets (R285). -/
def rxFlags (crcOk : Bool) : Byte := if crcOk then flagRxDone else flagRxDone ||| flagCrcErr

/-- DevRxDone (R285); no step when it is not enabled or the packet is longer than 255 bytes. -/
def devRxDone (a : Byte) (bytes : List Byte) (crcOk : Bool) (s : State) : State :=
  if (s.devMode = modeRxCont ∨ s.devMode = modeRxSingle) ∧ bytes.length ≤ 255 then
    let t : State :=
      { s with dev := { s.dev with fifo := fifoWrite s.cfg.fifoSize s.dev.fifo (a.toNat % s.cfg.fifoSize) bytes } }
    ((t.putReg t.cfg.aFifoRxCurrent a).putReg t.cfg.aRxNbBytes (BitVec.ofNat 8 bytes.length)).raiseFlags (rxFlags crcOk)
  else s

/-- DevModeGlitch (R286), only under the switch. -/
def devModeGlitch (v : Byte) (s : State) : State :=
  if s.cfg.deviceFaultInjection then s.putReg s.cfg.aOpmode v else s

/-- DevFlag (R286), only under the switch and only for a bit the source does not name (30_encoding.md R108). -/
def devFlag (b : BitVec 3) (s : State) : State :=
  if s.cfg.deviceFaultInjection ∧ b ≠ 3 ∧ b ≠ 5 ∧ b ≠ 6 then s.raiseFlags ((1 : Byte) <<< b.toNat) else s

end Sys2Proof.Machine
end

