-- ==== Sys2Proof/Machine/Ops.lean ====
section
/-! DEFINITION. The named operations: bus transactions (40_register_interface.md R130 to R136), the outcome of a micro-step, error entry (60_exceptions.md R282) and completion, the lock envelope of a host command (R137), the field RMW (41_modem_configurator.md R151) and the verified mode transition (42_mode_controller.md R191, R194). -/

namespace Sys2Proof.Machine

/-! ## Bus transactions -/

/-- How a requested bus transaction ends. -/
inductive Txn where
  /-- It completed; the bytes received (none for a write). -/
  | done (bytes : List Byte) (s : State)
  /-- It failed, or could not start because the bus has faulted: BusFault (10_state.md R27, R136). -/
  | failed (s : State)
  | fault (f : Fault)
  | refused (r : Refusal)

/-- Append one record to the transaction log, tagged with the lock's owner (10_state.md R53). -/
def State.log (s : State) (kind : BusKind) (a : Addr) (data : List Byte) (faulted : Bool) : State :=
  { s with trace := s.trace ++ [{ kind := kind, addr := a, data := data, owner := s.lockOwner, faulted := faulted }] }

/-- How many bytes a failed transaction moved, a free value (R136: of unspecified extent). -/
def State.freeCount (s : State) : Nat := (Config.freeByte (s.drawn + 128 + s.cfg.fifoSize)).toNat

/-- A transaction that fails in the bus environment (R136): its record, marked faulted, with the bytes moved
left free, and the broken bus. -/
def State.failTxn (s : State) (kind : BusKind) (a : Addr) (data : List Byte) : State :=
  { (s.log kind a (data.take s.freeCount) true).busBroken with drawn := s.drawn + 512 + s.cfg.fifoSize }

/-- A completed transaction: its record, and the select line released (40_register_interface.md R131). -/
def State.closeTxn (s : State) (kind : BusKind) (a : Addr) (data : List Byte) : State :=
  { s.log kind a data false with sel := false }

/-- `MemRead(a, n)`, `n >= 1`: one read transaction (R132, R134). -/
def busRead (a : Addr) (n : Nat) (s : State) : Txn :=
  if s.busFault then .failed s
  else if s.lockOwner = .none then .fault .busWithoutLock
  else if s.busFails then .failed (s.failTxn .rd a (freeBytes (s.drawn + 129 + s.cfg.fifoSize) n))
  else
    match devRead a n s with
    | .done bs t => .done bs (t.closeTxn .rd a bs)
    | .fault f => .fault f
    | .refused r => .refused r

/-- `MemWrite(a, n, data)`, at least one byte: one write transaction (R133, R135). -/
def busWrite (a : Addr) (data : List Byte) (s : State) : Txn :=
  if s.busFault then .failed s
  else if s.lockOwner = .none then .fault .busWithoutLock
  else if s.busFails then .failed (s.failTxn .wr a data)
  else
    match devWrite a data s with
    | .done _ t => .done [] (t.closeTxn .wr a data)
    | .fault f => .fault f
    | .refused r => .refused r

/-! ## Micro-steps -/

/-- How one micro-step of an operation ends (10_state.md R24, 00_scope.md R13). -/
inductive Micro where
  /-- The operation goes on; `seq` names its next micro-step. -/
  | cont (s : State)
  /-- The operation returns OK with a result. -/
  | done (res : Word32) (s : State)
  /-- The operation raises an error. -/
  | raise (e : Err) (s : State)
  | fault (f : Fault)
  | refused (r : Refusal)

/-- What a micro-step does after its transaction; a failed transaction raises BusFault (R271). -/
def Txn.andThen (t : Txn) (k : List Byte → State → Micro) : Micro :=
  match t with
  | .done bs s => k bs s
  | .failed s => .raise .busFault s
  | .fault f => .fault f
  | .refused r => .refused r

/-- A micro-step that reads one register. -/
def readReg (a : Addr) (s : State) (k : Byte → State → Micro) : Micro :=
  (busRead a 1 s).andThen (fun bs t => k (bs.headD 0) t)

/-- A micro-step that writes one register. -/
def writeReg (a : Addr) (v : Byte) (s : State) (k : State → Micro) : Micro :=
  (busWrite a [v] s).andThen (fun _ t => k t)

/-- What a procedure's caller does when the procedure returns OK. -/
def Micro.onDone (m : Micro) (k : Word32 → State → Micro) : Micro :=
  match m with
  | .done r s => k r s
  | .cont s => .cont s
  | .raise e s => .raise e s
  | .fault f => .fault f
  | .refused r => .refused r

/-- `seq <- (m, NONE)`. -/
def State.goto (s : State) (m : Main) : State := { s with seq := ⟨m, .none⟩ }

/-- `seq` moves to another step of set_mode inside the same main step. -/
def State.gotoSub (s : State) (b : Sub) : State := { s with seq := { s.seq with sub := b } }

/-- Call set_mode_retry as the subroutine of a main step: no attempt made yet (42_mode_controller.md R194). -/
def State.callSetMode (s : State) (m : Main) : State :=
  { s with seq := ⟨m, .mRd⟩, pe := { s.pe with attempt := 0 } }

/-! ## Completion and error entry of a host command -/

/-- E5 of the envelope: the completion code and the result are written and the port is free again
(40_register_interface.md R137, 10_state.md R23). -/
def State.finish (s : State) (code : Byte) (res : Word32) : State :=
  { s with host := { s.host with busy := false, pos := .e0, status := code, res := res } }

/-- E4 of the envelope: the sequencer idle and the lock free (R137). -/
def State.unlock (s : State) : State := { s with seq := .idle, lockOwner := .none }

/-- Error entry of a host command (60_exceptions.md R282): the code and the info are recorded and the port is
free; no later micro-step runs, nothing is saved, and there is no return instruction (R283). -/
def State.raiseHost (s : State) (e : Err) : State := s.finish e.code e.info

/-! ## The lock envelope, R137 -/

/-- What differs between the commands that run inside the envelope. -/
structure Envelope where
  /-- E0: the command's own argument check. -/
  check : Option Err
  /-- What the step that takes the lock does besides, with `seq` set to the first micro-step. -/
  start : State → State
  /-- The body, one micro-step at a time. -/
  body : State → Micro
  /-- What else an error leaves in the port. -/
  onErr : Err → State → State

/-- An error found before the lock is held. -/
def Envelope.failUnlocked (v : Envelope) (e : Err) (s : State) : State := v.onErr e (s.raiseHost e)

/-- An error raised by the body: the lock is released in the same step (E4, E5). -/
def Envelope.failLocked (v : Envelope) (e : Err) (s : State) : State := v.onErr e (s.unlock.raiseHost e)

/-- E0 and E1, and on passing them the request for the lock with its deadline, if any (E2). -/
def Envelope.enter (v : Envelope) (s : State) : State :=
  match v.check with
  | some e => v.failUnlocked e s
  | none =>
    if s.busFault then v.failUnlocked .busFault s
    else { s with host := { s.host with pos := .e2 (lockDeadlineAt s.now s.cfg.lockTimeoutMs) } }

/-- E2: test and set in one step, BusFault if a sender faulted the bus meanwhile, LockTimeout at a finite
deadline, else go on waiting. -/
def Envelope.await (v : Envelope) (deadline : Option Word32) (s : State) : State :=
  if s.lockOwner = .none then
    if s.busFault then v.failUnlocked .busFault s
    else v.start { s with lockOwner := .host, host := { s.host with pos := .e3 } }
  else if deadlineReached s.now deadline then v.failUnlocked .lockTimeout s
  else s

/-- E3 to E5: one micro-step of the body. -/
def Envelope.run (v : Envelope) (s : State) : Host.Outcome State Fault Refusal :=
  match v.body s with
  | .cont t => .next t
  | .done r t => .next (t.unlock.finish codeOk r)
  | .raise e t => .next (v.failLocked e t)
  | .fault f => .fault f
  | .refused r => .refused r

/-- One step of the command executor on a command that runs inside the envelope. -/
def Envelope.exec (v : Envelope) (s : State) : Host.Outcome State Fault Refusal :=
  match s.host.pos with
  | .e0 => .next (v.enter s)
  | .e2 deadline => .next (v.await deadline s)
  | .e3 => v.run s

/-- Nothing else to do on an error. -/
def noErrEffect (_ : Err) (s : State) : State := s

/-- The envelope of a command with no argument check whose body starts at a main step. -/
def envelopeAt (m : Main) (body : State → Micro) : Envelope :=
  { check := none, start := fun s => s.goto m, body := body, onErr := noErrEffect }

/-! ## Procedures shared by the commands -/

/-- The field read-modify-write of 41_modem_configurator.md R151, then the shadow and the result (R150 (e)). -/
def rmwBody (a : Addr) (mask : Byte) (pos : Nat) (val : Byte) (commit : State → State) (s : State) : Micro :=
  match s.seq with
  | ⟨.cRd, .none⟩ => readReg a s (fun b t => .cont ({ t with pe := { t.pe with tmp := b } }.goto .cWr))
  | ⟨.cWr, .none⟩ => writeReg a (insertField s.pe.tmp mask pos val) s (fun t => .done (val.setWidth 32) (commit t))
  | _ => .fault .badMicroStep

/-- The three micro-steps of set_mode (42_mode_controller.md R191). With `retry` they count attempts and
start over up to `MODE_ATTEMPTS` times (R194); `k` is what follows success. -/
def setModeStep (target : ModeCode) (retry : Bool) (s : State) (k : State → Micro) : Micro :=
  match s.seq.sub with
  | .mRd =>
    readReg s.cfg.aOpmode { s with pe := { s.pe with attempt := if retry then s.pe.attempt + 1 else s.pe.attempt } }
      (fun v t => .cont ({ t with pe := { t.pe with modeByte := v } }.gotoSub .mWr))
  | .mWr => writeReg s.cfg.aOpmode (withMode s.pe.modeByte target) s (fun t => .cont (t.gotoSub .mVf))
  | .mVf =>
    readReg s.cfg.aOpmode s (fun r t =>
      if modeField r = target then k { t with modeShadow := target }
      else if retry ∧ t.pe.attempt.toNat < t.cfg.modeAttempts.toNat then
        .cont ({ t with modeShadow := modeField r }.gotoSub .mRd)
      else .raise (.modeVerificationFailed r) { t with modeShadow := modeField r })
  | .none => .fault .badMicroStep

end Sys2Proof.Machine
end

