-- ==== Sys2Proof/Machine/RegisterInterface.lean ====
section
/-! DEFINITION. The Register Interface: RDREG, WRREG, RDBURST, WRBURST (40_register_interface.md R138 to R141) and the two bus transaction kinds BUS.RD and BUS.WR (R132 to R135). -/

namespace Sys2Proof.Machine

/-- The body of RDREG (R138). -/
def rdregBody (addr : Addr) (s : State) : Micro :=
  match s.seq with
  | ⟨.xTxn, .none⟩ => readReg addr s (fun b t => .done (b.setWidth 32) t)
  | _ => .fault .badMicroStep

/-- RDREG (R138). -/
def execRdreg (addr : Addr) (s : State) : Host.Outcome State Fault Refusal :=
  (envelopeAt .xTxn (rdregBody addr)).exec s

/-- The body of WRREG (R139). -/
def wrregBody (addr : Addr) (data : Byte) (s : State) : Micro :=
  match s.seq with
  | ⟨.xTxn, .none⟩ => writeReg addr data s (fun t => .done 0 t)
  | _ => .fault .badMicroStep

/-- WRREG (R139). -/
def execWrreg (addr : Addr) (data : Byte) (s : State) : Host.Outcome State Fault Refusal :=
  (envelopeAt .xTxn (wrregBody addr data)).exec s

/-- Bytes received go to the front of `rbuf`, their number to `rlen` (R140, 43_packet_engine.md R215). -/
def State.deliver (s : State) (bytes : List Byte) (n : Byte) : State :=
  { s with host := { s.host with rbuf := overlay s.host.rbuf bytes, rlen := n } }

/-- The body of RDBURST (R140). -/
def rdburstBody (addr : Addr) (n : Byte) (s : State) : Micro :=
  match s.seq with
  | ⟨.xTxn, .none⟩ =>
    if n = 0 then .done 0 { s with host := { s.host with rlen := 0 } }
    else (busRead addr n.toNat s).andThen (fun bs t => .done (n.setWidth 32) (t.deliver bs n))
  | _ => .fault .badMicroStep

/-- On BusFault `rbuf` and `rlen` are unspecified (R140, 93_implementation_defined.md U14). -/
def rdburstOnErr (e : Err) (s : State) : State :=
  match e with
  | .busFault =>
    { s with
      host := { s.host with rbuf := freeBytes (s.drawn + 1) 255, rlen := Config.freeByte s.drawn },
      drawn := s.drawn + 256 }
  | .modeVerificationFailed _ | .invalidPayload | .transmitTimeout | .receiveTimeout => s
  | .payloadCrcError | .illegalCommand | .lockTimeout => s

/-- RDBURST (R140). -/
def execRdburst (addr : Addr) (n : Byte) (s : State) : Host.Outcome State Fault Refusal :=
  ({ envelopeAt .xTxn (rdburstBody addr n) with onErr := rdburstOnErr } : Envelope).exec s

/-- The step that takes the lock copies the host's bytes: `pe_buf[0..n-1] <- hbuf[0..n-1]` (R141, 20_memory.md R85). -/
def State.loadPayload (s : State) (n : Nat) : State :=
  { s with pe := { s.pe with buf := overlay s.pe.buf (s.host.hbuf.take n) } }

/-- The body of WRBURST (R141). DESIGN CHOICE (log entry 28): one byte at `A_OPMODE` is a whole-byte write of that
register, as R141 and 20_memory.md R66 say, though 42_mode_controller.md R196 names WRREG alone as able to change its
bits 7:3. -/
def wrburstBody (addr : Addr) (n : Byte) (s : State) : Micro :=
  match s.seq with
  | ⟨.xTxn, .none⟩ =>
    if n = 0 then .done 0 s
    else (busWrite addr (s.pe.buf.take n.toNat) s).andThen (fun _ t => .done (n.setWidth 32) t)
  | _ => .fault .badMicroStep

/-- WRBURST (R141). -/
def execWrburst (addr : Addr) (n : Byte) (s : State) : Host.Outcome State Fault Refusal :=
  ({ envelopeAt .xTxn (wrburstBody addr n) with start := fun s => (s.loadPayload n.toNat).goto .xTxn } : Envelope).exec s

/-- The bracket is closed: no address byte waits, and `bytes` are the bytes received (R131). -/
def State.closeBus (s : State) (bytes : List Byte) : State :=
  { s with busPort := { addrByte := none, out := [], want := 0, inp := bytes } }

/-- The end of a transaction run from the bus port itself. -/
def busPortEnd (t : Txn) : Host.Outcome State Fault Refusal :=
  match t with
  | .done bs s => .next (s.closeBus bs)
  | .failed s => .next (s.closeBus [])
  | .fault f => .fault f
  | .refused r => .refused r

/-- BUS.RD: one read transaction of as many bytes as the bus port wants (R132, R134); none for a count of 0
(92_eei_decisions.md D32). -/
def execBusRd (addr : Addr) (s : State) : Host.Outcome State Fault Refusal :=
  if s.busPort.want = 0 then .next (s.closeBus []) else busPortEnd (busRead addr s.busPort.want.toNat s)

/-- BUS.WR: one write transaction of the bus port's bytes (R133, R135); none for no bytes (D32). -/
def execBusWr (addr : Addr) (s : State) : Host.Outcome State Fault Refusal :=
  if s.busPort.out = [] then .next (s.closeBus []) else busPortEnd (busWrite addr s.busPort.out s)

end Sys2Proof.Machine
end

