-- ==== Sys2Proof/Machine/PacketEngine.lean ====
section
/-! DEFINITION. The Packet Engine: the completion wait, the transmit and receive procedures, TRANSMIT and RECEIVE (43_packet_engine.md R210 to R221). -/

namespace Sys2Proof.Machine

/-- `ensure_standby()` at its first micro-step (R218): skip to `next` if the shadow says Standby, else call
set_mode_retry. -/
def ensureStandby (m next : Main) (s : State) : State :=
  if s.modeShadow = modeStdby then s.goto next else s.callSetMode m

/-- Arm a completion wait on entering its micro-step: the count of a poll (R213) or the deadline of an
interrupt wait (R214). -/
def State.armWait (s : State) (m : Main) : State :=
  match s.cfg.completionMode with
  | .poll => { s with pe := { s.pe with cnt := 0 } }.goto m
  | .irq => { s with pe := { s.pe with deadline := s.now + s.cfg.irqTimeoutMs } }.goto m

/-- One poll of the flags (R213): the flag is tested before the count. -/
def pollStep (bit : Byte) (timeout : Err) (s : State) (k : State → Micro) : Micro :=
  readReg s.cfg.aIrqFlags s (fun f t =>
    let u : State := { t with pe := { t.pe with flags := f, cnt := t.pe.cnt + 1 } }
    if f &&& bit ≠ 0 then k u
    else if u.pe.cnt = u.cfg.retryBound then .raise timeout u
    else .cont u)

/-- One step of an interrupt wait (R214): a notification beats a reached deadline (60_exceptions.md R281 (e));
with neither, the engine stays where it is. -/
def irqStep (bit : Byte) (timeout : Err) (s : State) (k : State → Micro) : Micro :=
  if s.irqLatch then
    readReg s.cfg.aIrqFlags { s with irqLatch := false } (fun f t =>
      let u : State := { t with pe := { t.pe with flags := f } }
      if f &&& bit ≠ 0 then k u else .cont u)
  else if timeReached s.now s.pe.deadline then .raise timeout s
  else .cont s

/-- `wait_done(bit)` in the configured completion mode (R220). -/
def waitStep (bit : Byte) (timeout : Err) (s : State) (k : State → Micro) : Micro :=
  match s.cfg.completionMode with
  | .poll => pollStep bit timeout s k
  | .irq => irqStep bit timeout s k

/-- The payload of the operation in hand, `pe_buf[0..pe_len-1]`. -/
def State.payload (s : State) : List Byte := s.pe.buf.take s.pe.len.toNat

/-- One micro-step of `pe_transmit()` (R212). -/
def peTransmit (s : State) : Micro :=
  match s.seq with
  | ⟨.tEns, .none⟩ => .cont (ensureStandby .tEns .tBase s)
  | ⟨.tEns, _⟩ => setModeStep modeStdby true s (fun t => .cont (t.goto .tBase))
  | ⟨.tBase, .none⟩ =>
    readReg s.cfg.aFifoTxBase s (fun b t => .cont ({ t with pe := { t.pe with tmp := b } }.goto .tPtr))
  | ⟨.tPtr, .none⟩ => writeReg s.cfg.aFifoAddrPtr s.pe.tmp s (fun t => .cont (t.goto .tFifo))
  | ⟨.tFifo, .none⟩ => (busWrite s.cfg.aFifo s.payload s).andThen (fun _ t => .cont (t.goto .tLen))
  | ⟨.tLen, .none⟩ => writeReg s.cfg.aPayloadLength s.pe.len s (fun t => .cont (t.goto .tClr))
  | ⟨.tClr, .none⟩ =>
    writeReg s.cfg.aIrqFlags flagTxDone s (fun t => .cont ({ t with irqLatch := false }.callSetMode .tMode))
  | ⟨.tMode, _⟩ => setModeStep modeTx true s (fun t => .cont (t.armWait .tWait))
  | ⟨.tWait, .none⟩ => waitStep flagTxDone .transmitTimeout s (fun t => .cont (t.goto .tAck))
  | ⟨.tAck, .none⟩ => writeReg s.cfg.aIrqFlags flagTxDone s (fun t => .cont (t.callSetMode .tStby))
  | ⟨.tStby, _⟩ => setModeStep modeStdby true s (fun t => .done 0 t)
  | _ => .fault .badMicroStep

/-- E0 of TRANSMIT (R211). -/
def payloadCheck (c : Config) (len : BitVec 16) : Option Err :=
  if len.toNat = 0 ∨ c.maxPayload < len.toNat then some .invalidPayload else none

/-- TRANSMIT (R211). -/
def execTransmit (len : BitVec 16) (s : State) : Host.Outcome State Fault Refusal :=
  ({ check := payloadCheck s.cfg len
     start := fun s =>
       let t := s.loadPayload len.toNat
       { t with pe := { t.pe with len := len.setWidth 8 } }.goto .tEns
     body := fun s => (peTransmit s).onDone (fun _ t => .done (len.setWidth 32) t)
     onErr := noErrEffect } : Envelope).exec s

/-- Whether the flags byte that showed RX-done also shows a CRC error (R216, R217). -/
def State.crcBad (s : State) : Bool := s.pe.flags &&& flagCrcErr != 0

/-- What `R_ACK` writes to the flags: RX-done, and on the CRC path also the CRC error (R216, R217). -/
def rxAckByte (s : State) : Byte := if s.crcBad then flagRxDone ||| flagCrcErr else flagRxDone

/-- One micro-step of `pe_receive()` (R216, R217). -/
def peReceive (s : State) : Micro :=
  match s.seq with
  | ⟨.rEns, .none⟩ => .cont (ensureStandby .rEns .rMode s)
  | ⟨.rEns, _⟩ => setModeStep modeStdby true s (fun t => .cont (t.goto .rMode))
  | ⟨.rMode, .none⟩ => .cont ({ s with irqLatch := false }.callSetMode .rMode)
  | ⟨.rMode, _⟩ => setModeStep modeRxCont true s (fun t => .cont (t.armWait .rWait))
  | ⟨.rWait, .none⟩ => waitStep flagRxDone .receiveTimeout s (fun t => .cont (t.goto .rCrc))
  | ⟨.rCrc, .none⟩ => .cont (s.goto (if s.crcBad then .rAck else .rNb))
  | ⟨.rNb, .none⟩ =>
    readReg s.cfg.aRxNbBytes s (fun n t => .cont ({ t with pe := { t.pe with len := n } }.goto .rCur))
  | ⟨.rCur, .none⟩ =>
    readReg s.cfg.aFifoRxCurrent s (fun b t => .cont ({ t with pe := { t.pe with tmp := b } }.goto .rPtr))
  | ⟨.rPtr, .none⟩ => writeReg s.cfg.aFifoAddrPtr s.pe.tmp s (fun t => .cont (t.goto .rFifo))
  | ⟨.rFifo, .none⟩ =>
    if s.pe.len = 0 then .cont (s.goto .rAck)
    else (busRead s.cfg.aFifo s.pe.len.toNat s).andThen (fun bs t =>
      .cont ({ t with pe := { t.pe with buf := overlay t.pe.buf bs } }.goto .rAck))
  | ⟨.rAck, .none⟩ => writeReg s.cfg.aIrqFlags (rxAckByte s) s (fun t => .cont (t.callSetMode .rStby))
  | ⟨.rStby, _⟩ =>
    setModeStep modeStdby true s (fun t => if t.crcBad then .raise .payloadCrcError t else .done 0 t)
  | _ => .fault .badMicroStep

/-- On every error of RECEIVE `rlen <- 0` (R215), and `res` is 0: the info of every error but ModeVerificationFailed
(60_exceptions.md R270), of which R215 says 0 and R272 the byte read back; the switch chooses (log entry 7). -/
def receiveOnErr (_ : Err) (s : State) : State :=
  { s with host := { s.host with rlen := 0, res := if s.cfg.receiveErrorsClearRes then 0 else s.host.res } }

/-- RECEIVE (R215). -/
def execReceive (s : State) : Host.Outcome State Fault Refusal :=
  ({ check := none
     start := fun s => s.goto .rEns
     body := fun s => (peReceive s).onDone (fun _ t => .done (t.pe.len.setWidth 32) (t.deliver t.payload t.pe.len))
     onErr := receiveOnErr } : Envelope).exec s

end Sys2Proof.Machine
end

