-- ==== Sys2Proof/Machine/Arbiter.lean ====
section
/-! DEFINITION. The Bus Arbiter and Rate Scheduler: SCHSTART and the six steps of a sender, WAKE, ACQUIRE, SKIP, COPY, SEND, RELEASE (44_arbiter_scheduler.md R240 to R255). -/

namespace Sys2Proof.Machine

/-- A sender as SCHSTART leaves it: started if its bit is set and it was off (R241). -/
def startSender (c : Config) (now : Word32) (mask : BitVec 5) (i : Sid) (r : Sender) : Sender :=
  if mask.getLsbD i.toNat ∧ r.phase = .off then
    { r with nextWake := now + c.offsetMs.get i, phase := .sleeping }
  else r

/-- The senders that are not off, as five bits (R241). -/
def startedBits (v : Five Sender) : Word32 := senderBits (v.imap (fun _ r => r.phase != .off))

/-- SCHSTART: one step, no lock, no transaction (R241). -/
def execSchstart (mask : BitVec 5) (s : State) : Host.Outcome State Fault Refusal :=
  let v := s.senders.imap (startSender s.cfg s.now mask)
  .next ({ s with senders := v }.finish codeOk (startedBits v))

/-- Replace one sender's registers. -/
def State.putSender (s : State) (i : Sid) (r : Sender) : State := { s with senders := s.senders.set i r }

/-- WAKE (R243). -/
def senderWake (i : Sid) (s : State) : State :=
  let r := s.senders.get i
  if timeReached s.now r.nextWake then
    s.putSender i
      { r with phase := .waitlock, lockDeadline := (lockDeadlineAt s.now s.cfg.lockTimeoutMs).getD r.lockDeadline }
  else s

/-- ACQUIRE (R244): test and set in one step. -/
def senderAcquire (i : Sid) (s : State) : State :=
  { s with lockOwner := .s i }.putSender i { s.senders.get i with phase := .copy }

/-- The next wake, computed from the previous one (R249), and back to sleep. -/
def sleepUntilNext (c : Config) (i : Sid) (r : Sender) : Sender :=
  { r with nextWake := r.nextWake + c.periodMs.get i, phase := .sleeping }

/-- SKIP (R245). -/
def senderSkip (i : Sid) (s : State) : State :=
  s.putSender i { sleepUntilNext s.cfg i (s.senders.get i) with status := Err.lockTimeout.code }

/-- SKIP exists only for a finite lock timeout and is enabled at its deadline (R245). -/
def skipEnabled (i : Sid) (s : State) : Bool :=
  s.cfg.lockTimeoutMs.isSome && timeReached s.now (s.senders.get i).lockDeadline

/-- A sender in WAITLOCK: ACQUIRE if the lock is free, SKIP if enabled, the choice the environment's where both
are (R244, R245, 60_exceptions.md R281 (g)); with neither it has no step. -/
def senderWaitlock (i : Sid) (skip : Bool) (s : State) : State :=
  if s.lockOwner = .none ∧ ¬(skip = true ∧ skipEnabled i s = true) then senderAcquire i s
  else if skipEnabled i s then senderSkip i s
  else s

/-- COPY (R246). -/
def senderCopy (i : Sid) (s : State) : State :=
  let rec_ := s.snap.get i
  let t := s.putSender i { s.senders.get i with buf := rec_, phase := .sending }
  { t with
    pe := { t.pe with len := BitVec.ofNat 8 (1 + s.cfg.recLen.get i), buf := overlay t.pe.buf (s.cfg.pktId.get i :: rec_) } }.goto
    .tEns

/-- The end of SEND: the outcome recorded, the sequencer idle (R247). -/
def senderSent (i : Sid) (code : Byte) (s : State) : State :=
  { s with seq := .idle }.putSender i { s.senders.get i with status := code, phase := .release }

/-- SEND: one micro-step of `pe_transmit`; a faulted bus is tested once, before `T_ENS` (R247). -/
def senderSend (i : Sid) (s : State) : Host.Outcome State Fault Refusal :=
  if s.seq = ⟨.tEns, .none⟩ ∧ s.busFault = true then .next (senderSent i Err.busFault.code s)
  else
    match peTransmit s with
    | .cont t => .next t
    | .done _ t => .next (senderSent i codeOk t)
    | .raise e t => .next (senderSent i e.code t)
    | .fault f => .fault f
    | .refused r => .refused r

/-- RELEASE (R248). -/
def senderRelease (i : Sid) (s : State) : State :=
  { s with lockOwner := .none }.putSender i (sleepUntilNext s.cfg i (s.senders.get i))

/-- The one step enabled in a sender's phase (R242); a sender that is off has none. -/
def senderStep (i : Sid) (skip : Bool) (s : State) : Host.Outcome State Fault Refusal :=
  match (s.senders.get i).phase with
  | .off => .next s
  | .sleeping => .next (senderWake i s)
  | .waitlock => .next (senderWaitlock i skip s)
  | .copy => .next (senderCopy i s)
  | .sending => senderSend i s
  | .release => .next (senderRelease i s)

end Sys2Proof.Machine
end

