-- ==== Sys2Proof/Machine/ModeController.lean ====
section
/-! DEFINITION. The Mode Controller: SETMODE, ISMODE, INIT (42_mode_controller.md R190 to R198). -/

namespace Sys2Proof.Machine

/-- The body of SETMODE: one attempt (R192). -/
def setmodeBody (m : ModeCode) (s : State) : Micro :=
  match s.seq.main with
  | .mCmd => setModeStep m false s (fun t => .done (m.setWidth 32) t)
  | _ => .fault .badMicroStep

/-- SETMODE (R192). -/
def execSetmode (m : ModeCode) (s : State) : Host.Outcome State Fault Refusal :=
  ({ envelopeAt .mCmd (setmodeBody m) with start := fun s => { s with seq := ⟨.mCmd, .mRd⟩ } } : Envelope).exec s

/-- ISMODE: from the shadow, with no lock and no transaction (R193). -/
def execIsmode (m : ModeCode) (s : State) : Host.Outcome State Fault Refusal :=
  .next (s.finish codeOk (if s.modeShadow = m then 1 else 0))

/-- INIT's first micro-step: the device reset pulse, `x[0..6] <- unset`, `irq_latch <- 0` (R195). The reset
output is 1 only inside the step. -/
def State.initPulse (s : State) : State := { s.devReset with devRst := false, x := .unset, irqLatch := false }

/-- The body of INIT (R195). -/
def initBody (s : State) : Micro :=
  match s.seq with
  | ⟨.iRst, .none⟩ => .cont (s.initPulse.goto .iOpw)
  | ⟨.iOpw, .none⟩ =>
    writeReg s.cfg.aOpmode (opmodeInit s.cfg) s (fun t => .cont ({ t with modeShadow := modeSleep }.goto .iOpv))
  | ⟨.iOpv, .none⟩ =>
    readReg s.cfg.aOpmode s (fun r t =>
      if r &&& opmodeInitMask = opmodeInit t.cfg then .cont (t.goto .iTxb)
      else .raise (.modeVerificationFailed r) { t with modeShadow := modeField r })
  | ⟨.iTxb, .none⟩ => writeReg s.cfg.aFifoTxBase s.cfg.txBaseInit s (fun t => .cont (t.goto .iRxb))
  | ⟨.iRxb, .none⟩ => writeReg s.cfg.aFifoRxBase s.cfg.rxBaseInit s (fun t => .cont (t.callSetMode .iStby))
  | ⟨.iStby, _⟩ => setModeStep modeStdby true s (fun t => .done 0 t)
  | _ => .fault .badMicroStep

/-- INIT (R195). -/
def execInit (s : State) : Host.Outcome State Fault Refusal := (envelopeAt .iRst initBody).exec s

end Sys2Proof.Machine
end

