-- ==== Sys2Proof/Machine/ModemConfigurator.lean ====
section
/-! DEFINITION. The Modem Configurator: the seven setters and the six getters (41_modem_configurator.md R150 to R169). -/

namespace Sys2Proof.Machine

/-! ## Setters -/

/-- `x[1] <- sf` (R152). -/
def State.putSf (s : State) (v : Byte) : State := { s with x := { s.x with sf := some (v.setWidth 4) } }

/-- SETSF (R152). -/
def execSetsf (v : Byte) (s : State) : Host.Outcome State Fault Refusal :=
  (envelopeAt .cRd (rmwBody s.cfg.aModemConfig2 maskSf 4 (clampSf v) (fun t => t.putSf (clampSf v)))).exec s

/-- `x[0] <- bw` (R153). -/
def State.putBw (s : State) (v : Byte) : State := { s with x := { s.x with bw := some (v.setWidth 4) } }

/-- SETBW (R153). -/
def execSetbw (v : Byte) (s : State) : Host.Outcome State Fault Refusal :=
  (envelopeAt .cRd (rmwBody s.cfg.aModemConfig1 maskBw 4 (clampBw v) (fun t => t.putBw (clampBw v)))).exec s

/-- `x[2] <- cr` (R154). -/
def State.putCr (s : State) (v : Byte) : State := { s with x := { s.x with cr := some (v.setWidth 3) } }

/-- SETCR (R154). -/
def execSetcr (v : Byte) (s : State) : Host.Outcome State Fault Refusal :=
  (envelopeAt .cRd (rmwBody s.cfg.aModemConfig1 maskCr 1 (clampCr v) (fun t => t.putCr (clampCr v)))).exec s

/-- `x[3] <- en` (R155). -/
def State.putCrc (s : State) (en : BitVec 1) : State := { s with x := { s.x with crc := some en } }

/-- SETCRC (R155). -/
def execSetcrc (en : BitVec 1) (s : State) : Host.Outcome State Fault Refusal :=
  (envelopeAt .cRd (rmwBody s.cfg.aModemConfig2 maskCrc 2 (en.setWidth 8) (fun t => t.putCrc en))).exec s

/-- `x[4] <- n` (R156). -/
def State.putPre (s : State) (n : BitVec 16) : State := { s with x := { s.x with pre := some n } }

/-- The body of SETPRE (R156). -/
def setpreBody (n : BitVec 16) (s : State) : Micro :=
  match s.seq with
  | ⟨.cWr, .none⟩ => writeReg s.cfg.aPreambleMsb (n.extractLsb' 8 8) s (fun t => .cont (t.goto .cW2))
  | ⟨.cW2, .none⟩ =>
    writeReg s.cfg.aPreambleLsb (n.extractLsb' 0 8) s (fun t => .done (n.setWidth 32) (t.putPre n))
  | _ => .fault .badMicroStep

/-- SETPRE (R156). -/
def execSetpre (n : BitVec 16) (s : State) : Host.Outcome State Fault Refusal :=
  (envelopeAt .cWr (setpreBody n)).exec s

/-- `x[5] <- f` (R158). -/
def State.putFreq (s : State) (f : Word32) : State := { s with x := { s.x with freq := some f } }

/-- The body of SETFREQ (R158). -/
def setfreqBody (f : Word32) (s : State) : Micro :=
  match s.seq with
  | ⟨.cWr, .none⟩ =>
    writeReg s.cfg.aFrfMsb ((frfOf s.cfg f).extractLsb' 16 8) s (fun t => .cont (t.goto .cW2))
  | ⟨.cW2, .none⟩ =>
    writeReg s.cfg.aFrfMid ((frfOf s.cfg f).extractLsb' 8 8) s (fun t => .cont (t.goto .cW3))
  | ⟨.cW3, .none⟩ =>
    writeReg s.cfg.aFrfLsb ((frfOf s.cfg f).extractLsb' 0 8) s
      (fun t => .done ((frfOf s.cfg f).setWidth 32) (t.putFreq f))
  | _ => .fault .badMicroStep

/-- SETFREQ (R158). -/
def execSetfreq (f : Word32) (s : State) : Host.Outcome State Fault Refusal :=
  (envelopeAt .cWr (setfreqBody f)).exec s

/-- `x[6] <- p` (R160). -/
def State.putPwr (s : State) (p : Byte) : State := { s with x := { s.x with pwr := some p } }

/-- The body of SETPWR for the selected setting (R160). -/
def setpwrBody (p : Byte) (s : State) : Micro :=
  match s.seq with
  | ⟨.cWr, .none⟩ => writeReg s.cfg.aPaConfig (paConfigByte s.cfg p) s (fun t => .cont (t.goto .cW2))
  | ⟨.cW2, .none⟩ =>
    writeReg s.cfg.aPaDac (paDacByte s.cfg p) s (fun t => .done (p.setWidth 32) (t.putPwr p))
  | _ => .fault .badMicroStep

/-- SETPWR (R160). -/
def execSetpwr (dbm : Byte) (s : State) : Host.Outcome State Fault Refusal :=
  (envelopeAt .cWr (setpwrBody (powerSetting s.cfg dbm))).exec s

/-! ## Getters -/

/-- The body of a getter of one register (R162 to R165). -/
def getBody (a : Addr) (field : Byte → Word32) (s : State) : Micro :=
  match s.seq with
  | ⟨.gR1, .none⟩ => readReg a s (fun b t => .done (field b) t)
  | _ => .fault .badMicroStep

/-- GETSF (R162). -/
def execGetsf (s : State) : Host.Outcome State Fault Refusal :=
  (envelopeAt .gR1 (getBody s.cfg.aModemConfig2 (fun b => (b.extractLsb' 4 4).setWidth 32))).exec s

/-- GETBW (R163). -/
def execGetbw (s : State) : Host.Outcome State Fault Refusal :=
  (envelopeAt .gR1 (getBody s.cfg.aModemConfig1 (fun b => (b.extractLsb' 4 4).setWidth 32))).exec s

/-- GETCR (R164). -/
def execGetcr (s : State) : Host.Outcome State Fault Refusal :=
  (envelopeAt .gR1 (getBody s.cfg.aModemConfig1 (fun b => (b.extractLsb' 1 3).setWidth 32))).exec s

/-- GETCRC (R165). -/
def execGetcrc (s : State) : Host.Outcome State Fault Refusal :=
  (envelopeAt .gR1 (getBody s.cfg.aModemConfig2 (fun b => (b.extractLsb' 2 1).setWidth 32))).exec s

/-- The body of GETPRE (R166). -/
def getpreBody (s : State) : Micro :=
  match s.seq with
  | ⟨.gR1, .none⟩ =>
    readReg s.cfg.aPreambleMsb s (fun h t => .cont ({ t with pe := { t.pe with getHi := h } }.goto .gR2))
  | ⟨.gR2, .none⟩ => readReg s.cfg.aPreambleLsb s (fun l t => .done ((t.pe.getHi ++ l).setWidth 32) t)
  | _ => .fault .badMicroStep

/-- GETPRE (R166). -/
def execGetpre (s : State) : Host.Outcome State Fault Refusal := (envelopeAt .gR1 getpreBody).exec s

/-- The body of GETFREQ (R167). -/
def getfreqBody (s : State) : Micro :=
  match s.seq with
  | ⟨.gR1, .none⟩ =>
    readReg s.cfg.aFrfMsb s (fun a t => .cont ({ t with pe := { t.pe with getHi := a } }.goto .gR2))
  | ⟨.gR2, .none⟩ =>
    readReg s.cfg.aFrfMid s (fun b t => .cont ({ t with pe := { t.pe with getMid := b } }.goto .gR3))
  | ⟨.gR3, .none⟩ =>
    readReg s.cfg.aFrfLsb s (fun c t => .done (freqOfBytes t.cfg t.pe.getHi t.pe.getMid c) t)
  | _ => .fault .badMicroStep

/-- GETFREQ (R167). -/
def execGetfreq (s : State) : Host.Outcome State Fault Refusal := (envelopeAt .gR1 getfreqBody).exec s

end Sys2Proof.Machine
end

