-- ==== Sys2Proof/Machine/Dispatch.lean ====
section
/-! DEFINITION. One arm per constructor of Instr: the command executor's next micro-step on that command, or one bus transaction. -/

namespace Sys2Proof.Machine

def exec (i : Instr) (s : State) : Host.Outcome State Fault Refusal :=
  match i with
  | .rdreg addr => Sys2Proof.Machine.execRdreg addr s
  | .wrreg addr data => Sys2Proof.Machine.execWrreg addr data s
  | .rdburst addr n => Sys2Proof.Machine.execRdburst addr n s
  | .wrburst addr n => Sys2Proof.Machine.execWrburst addr n s
  | .setsf v => Sys2Proof.Machine.execSetsf v s
  | .setbw v => Sys2Proof.Machine.execSetbw v s
  | .setcr v => Sys2Proof.Machine.execSetcr v s
  | .setcrc en => Sys2Proof.Machine.execSetcrc en s
  | .setpre n => Sys2Proof.Machine.execSetpre n s
  | .setfreq f => Sys2Proof.Machine.execSetfreq f s
  | .setpwr dbm => Sys2Proof.Machine.execSetpwr dbm s
  | .getsf => Sys2Proof.Machine.execGetsf s
  | .getbw => Sys2Proof.Machine.execGetbw s
  | .getcr => Sys2Proof.Machine.execGetcr s
  | .getcrc => Sys2Proof.Machine.execGetcrc s
  | .getpre => Sys2Proof.Machine.execGetpre s
  | .getfreq => Sys2Proof.Machine.execGetfreq s
  | .setmode m => Sys2Proof.Machine.execSetmode m s
  | .ismode m => Sys2Proof.Machine.execIsmode m s
  | .init => Sys2Proof.Machine.execInit s
  | .transmit len => Sys2Proof.Machine.execTransmit len s
  | .receive => Sys2Proof.Machine.execReceive s
  | .schstart mask => Sys2Proof.Machine.execSchstart mask s
  | .busRd addr => Sys2Proof.Machine.execBusRd addr s
  | .busWr addr => Sys2Proof.Machine.execBusWr addr s

end Sys2Proof.Machine
end

