-- ==== Sys2Proof/Machine/Environment.lean ====
section
/-! DEFINITION. The agents around the block's operations: the host port, the producers, the clock, the block's reset input (60_exceptions.md R284 to R291, 70_reset_and_hazards.md R310), the command executor's fetch of the accepted command (30_encoding.md R113, R114), and the choice of the next move (R295). -/

namespace Sys2Proof.Machine

/-- The host presents a command while the port is free (10_state.md R23, 60_exceptions.md R288). -/
def hostPresent (w : CmdWord) (s : State) : State :=
  if s.host.busy then s else { s with host := { s.host with busy := true, cmd := w, pos := .e0 } }

/-- A byte list with the bytes from an index on replaced. -/
def spliceAt (dst : List Byte) (at_ : Nat) (src : List Byte) : List Byte :=
  dst.take at_ ++ src ++ dst.drop (at_ + src.length)

/-- The host writes bytes of `hbuf` while the port is free and they fit the buffer (R288, 20_memory.md R85). -/
def hostWriteBuf (at_ : Byte) (bytes : List Byte) (s : State) : State :=
  if s.host.busy ∨ 255 < at_.toNat + bytes.length then s
  else { s with host := { s.host with hbuf := spliceAt s.host.hbuf at_.toNat bytes } }

/-- `SnapWrite(i, rec)` by producer `i`, a whole record in one step (20_memory.md R76, 60_exceptions.md R289). -/
def snapWrite (i : Sid) (bytes : List Byte) (s : State) : State :=
  if bytes.length = s.cfg.recLen.get i then { s with snap := s.snap.set i bytes } else s

/-- The clock's step (60_exceptions.md R290). -/
def clockTick (s : State) : State := { s with now := s.now + 1 }

/-- The free bytes of one sender's buffer at block reset. -/
def rstSenderBuf (s : State) (i : Sid) : List Byte :=
  freeBytes (s.drawn + 1024 + 256 * i.toNat) (s.cfg.recLen.get i)

/-- The block's reset input (70_reset_and_hazards.md R310 to R312): every element of the block takes its reset
value (10_state.md R54), the buffers R54 leaves unspecified take free values, and the device is not touched.
The environment's script and the count of free values are not the block's. -/
def blockReset (s : State) : State :=
  let r := State.resetWith s.cfg
  { r with
    host := { r.host with hbuf := freeBytes s.drawn 255, rbuf := freeBytes (s.drawn + 256) 255 },
    pe := { r.pe with buf := freeBytes (s.drawn + 512) 255 },
    senders := r.senders.imap (fun i q => { q with buf := rstSenderBuf s i }),
    dev := s.dev, env := s.env, drawn := s.drawn + 4096 }

/-- The command executor's step on the accepted command: an illegal word finishes at once with IllegalCommand
(30_encoding.md R113, 60_exceptions.md R277); a legal one takes its next micro-step. Idle, it has no step. -/
def executorStep (s : State) : Host.Outcome State Fault Refusal :=
  if s.host.busy then
    match decodeCmd s.host.cmd with
    | .ok i => exec i s
    | .error _ => .next (s.raiseHost .illegalCommand)
  else .next s

/-- The next move and the state with it taken: the head of the script, or a free choice when the script is
used up (R55, R295). -/
def nextEvent (s : State) : Event × State :=
  match s.env with
  | e :: rest => (e, { s with env := rest })
  | [] => (Config.freeEvent s.drawn, { s with drawn := s.drawn + 1 })

/-- One move of one agent. A move that is not enabled leaves the state as it is. -/
def runEvent (e : Event) (s : State) : Host.Outcome State Fault Refusal :=
  match e with
  | .exec busFails => executorStep { s with busFails := busFails }
  | .sender i skip busFails => senderStep i skip { s with busFails := busFails }
  | .devTxDone => .next (devTxDone s)
  | .devRxDone a bytes crcOk => .next (devRxDone a bytes crcOk s)
  | .devModeGlitch v => .next (devModeGlitch v s)
  | .devFlag b => .next (devFlag b s)
  | .present w => .next (hostPresent w s)
  | .hbufWrite at_ bytes => .next (hostWriteBuf at_ bytes s)
  | .snapWrite i bytes => .next (snapWrite i bytes s)
  | .tick => .next (clockTick s)
  | .rst => .next (blockReset s)

/-- Run an open bus bracket: decode its address byte (30_encoding.md R100) and do the transaction. -/
def runBracket (b : Byte) (s : State) : Host.Outcome State Fault Refusal := exec (decodeBus b) s

/-- The micro-steps of one instruction run one after the other with nothing between them: what the command
executor does in a stretch in which no other agent moves. -/
def execTimes : Nat → Instr → State → Host.Outcome State Fault Refusal
  | 0, _, s => .next s
  | n + 1, i, s =>
    match exec i s with
    | .next t => execTimes n i t
    | .fault f => .fault f
    | .refused r => .refused r

/-- The state with a host command accepted and its executor's move next (log entry 4). -/
def placeCommand (w : CmdWord) (s : State) : State :=
  let t := if s.lockOwner = .host then s.unlock else s
  { t with
    host := { t.host with busy := true, cmd := w, pos := .e0 }, env := .exec false :: t.env,
    busPort := { t.busPort with addrByte := none } }

/-- The state with a bus bracket open at its address byte: one byte to receive, one zero byte to send, the lock
held by the host if it was free (log entry 4). -/
def placeBracket (b : Byte) (s : State) : State :=
  { s with
    busPort := { addrByte := some b, out := [0], want := 1, inp := [] },
    lockOwner := if s.lockOwner = .none then .host else s.lockOwner }

end Sys2Proof.Machine
end

