-- ==== Sys2Proof/Machine/Step.lean ====
section
/-! DEFINITION. One step of the machine: one atomic step of one agent (60_exceptions.md R295, 70_reset_and_hazards.md R327). -/

namespace Sys2Proof.Machine

/-- One step. An open bus bracket is finished first, because nothing falls inside a transaction (20_memory.md
R79); otherwise the next move is made. -/
def step (s : State) : Host.Outcome State Fault Refusal :=
  match s.busPort.addrByte with
  | some b => runBracket b s
  | none => runEvent (nextEvent s).1 (nextEvent s).2

/-- The state whose next step fetches and runs the instruction of the given table word: a host command is in
the command port and the executor's move is next; a bus address byte stands in the bus port. -/
def State.withFetchWord (s : State) (nbits w : Nat) : State :=
  if nbits = 8 then placeBracket (BitVec.ofNat 8 w) s else placeCommand (BitVec.ofNat 40 w) s

end Sys2Proof.Machine
end

