-- ==== Sys2Proof/WellFormed.lean ====
section
/-! DEFINITION. What a well-formed configuration and a well-formed instruction are (00_scope.md R7, R8; 30_encoding.md R111, R112). -/

namespace Sys2Proof

/-- The register addresses are pairwise distinct (00_scope.md R8). -/
def Config.addrsDistinct (c : Config) : Bool := decide c.namedAddrs.Nodup

/-- The three frequency registers are consecutive (R8), as numbers: no wrap past 0x7F. -/
def Config.frfConsecutive (c : Config) : Bool :=
  (c.aFrfMid.toNat == c.aFrfMsb.toNat + 1) && (c.aFrfLsb.toNat == c.aFrfMsb.toNat + 2)

/-- `0 < OSC_HZ < 2^27` (R7). -/
def Config.oscOk (c : Config) : Bool := (0 < c.oscHz) && (c.oscHz < 2 ^ 27)

/-- The FIFO has a size its 8-bit pointer can hold (20_memory.md R60, R69). -/
def Config.fifoSizeOk (c : Config) : Bool := (0 < c.fifoSize) && (c.fifoSize ≤ 256)

/-- `1 <= MAX_PAYLOAD <= 255` (R7). -/
def Config.maxPayloadOk (c : Config) : Bool := (1 ≤ c.maxPayload) && (c.maxPayload ≤ 255)

/-- Every sender's packet fits (R8). -/
def Config.recLenOk (c : Config) (i : Sid) : Bool := decide (1 + c.recLen.get i ≤ c.maxPayload)

/-- The bounds of the waits and of the mode retry are at least 1 (R7). -/
def Config.boundsOk (c : Config) : Bool :=
  decide (1 ≤ c.retryBound.toNat) && decide (1 ≤ c.irqTimeoutMs.toNat) && decide (1 ≤ c.modeAttempts.toNat)

/-- Timeouts stay below the half range of the time comparison (44_arbiter_scheduler.md R250). -/
def Config.timeoutsOk (c : Config) : Bool :=
  decide (c.irqTimeoutMs.toNat < 2 ^ 31) &&
    match c.lockTimeoutMs with
    | none => true
    | some t => decide (t.toNat < 2 ^ 31)

/-- Every period lies in 20 to 1000 ms (R7). -/
def Config.periodOk (c : Config) (i : Sid) : Bool :=
  decide (20 ≤ (c.periodMs.get i).toNat) && decide ((c.periodMs.get i).toNat ≤ 1000)

/-- The five sender indices in order. -/
def allSids : List Sid := [.s0, .s1, .s2, .s3, .s4]

/-- The fastest period is 20 ms and the slowest 1000 ms (R7). -/
def Config.periodEndsOk (c : Config) : Bool :=
  allSids.any (fun i => (c.periodMs.get i).toNat == 20) && allSids.any (fun i => (c.periodMs.get i).toNat == 1000)

/-- The packet ids are pairwise distinct (R8). -/
def Config.pktIdsDistinct (c : Config) : Bool := decide (allSids.map c.pktId.get).Nodup

/-- The parameters R7 marks "source" have the values the source gives them. -/
def Config.sourceOk (c : Config) : Bool := (c.pktId.a0 == 0x01) && (c.paCfgMax == 0xFF) && (c.paDacMax == 0x87)

/-- A configuration the spec allows (00_scope.md R7, R8). -/
def Config.wf (c : Config) : Bool :=
  c.addrsDistinct && c.frfConsecutive && c.oscOk && c.fifoSizeOk && c.maxPayloadOk &&
    allSids.all c.recLenOk && c.boundsOk && c.timeoutsOk && allSids.all c.periodOk &&
    c.periodEndsOk && c.pktIdsDistinct && c.sourceOk

/-- A well-formed instruction. Each operand's type is exactly its field of the word (30_encoding.md R111,
R112), and "operand values that are in range of their field are never illegal" (R113): nothing is left to
check, for any constructor. -/
def Instr.wf : Instr → Bool
  | .rdreg _ | .wrreg _ _ | .rdburst _ _ | .wrburst _ _ => true
  | .setsf _ | .setbw _ | .setcr _ | .setcrc _ | .setpre _ | .setfreq _ | .setpwr _ => true
  | .getsf | .getbw | .getcr | .getcrc | .getpre | .getfreq => true
  | .setmode _ | .ismode _ | .init => true
  | .transmit _ | .receive => true
  | .schstart _ => true
  | .busRd _ | .busWr _ => true

end Sys2Proof
end

