-- ==== Sys2Proof/Safety.lean ====
section
/-! DEFINITION. What a safe state is: the invariant of the machine (44_arbiter_scheduler.md R252, 10_state.md R24, R29, 20_memory.md R60), in the terms the claims use. -/

namespace Sys2Proof.Machine

/-- The micro-steps of `pe_transmit` (43_packet_engine.md R212). -/
def isTransmitSeq : Seq → Bool
  | ⟨.tEns, _⟩ => true
  | ⟨.tBase, .none⟩ | ⟨.tPtr, .none⟩ | ⟨.tFifo, .none⟩ | ⟨.tLen, .none⟩ | ⟨.tClr, .none⟩ => true
  | ⟨.tMode, b⟩ => b != .none
  | ⟨.tWait, .none⟩ | ⟨.tAck, .none⟩ => true
  | ⟨.tStby, b⟩ => b != .none
  | _ => false

/-- The micro-steps of `pe_receive` (R216). -/
def isReceiveSeq : Seq → Bool
  | ⟨.rEns, _⟩ | ⟨.rMode, _⟩ => true
  | ⟨.rWait, .none⟩ | ⟨.rCrc, .none⟩ | ⟨.rNb, .none⟩ | ⟨.rCur, .none⟩ | ⟨.rPtr, .none⟩ => true
  | ⟨.rFifo, .none⟩ | ⟨.rAck, .none⟩ => true
  | ⟨.rStby, b⟩ => b != .none
  | _ => false

/-- The micro-steps of INIT (42_mode_controller.md R195). -/
def isInitSeq : Seq → Bool
  | ⟨.iRst, .none⟩ | ⟨.iOpw, .none⟩ | ⟨.iOpv, .none⟩ | ⟨.iTxb, .none⟩ | ⟨.iRxb, .none⟩ => true
  | ⟨.iStby, b⟩ => b != .none
  | _ => false

/-- Whether the sequencer stands at one of the listed main steps, outside set_mode. -/
def atOneOf (l : List Main) (q : Seq) : Bool := l.contains q.main && q.sub == .none

/-- The micro-steps of a host command's body (10_state.md R24). -/
def bodySeq : Instr → Seq → Bool
  | .rdreg _, q | .wrreg _ _, q | .rdburst _ _, q | .wrburst _ _, q => atOneOf [.xTxn] q
  | .setsf _, q | .setbw _, q | .setcr _, q | .setcrc _, q => atOneOf [.cRd, .cWr] q
  | .setpre _, q | .setpwr _, q => atOneOf [.cWr, .cW2] q
  | .setfreq _, q => atOneOf [.cWr, .cW2, .cW3] q
  | .getsf, q | .getbw, q | .getcr, q | .getcrc, q => atOneOf [.gR1] q
  | .getpre, q => atOneOf [.gR1, .gR2] q
  | .getfreq, q => atOneOf [.gR1, .gR2, .gR3] q
  | .setmode _, q => q.main == .mCmd && q.sub != .none
  | .init, q => isInitSeq q
  | .transmit _, q => isTransmitSeq q
  | .receive, q => isReceiveSeq q
  | .ismode _, _ | .schstart _, _ | .busRd _, _ | .busWr _, _ => false

/-- The host commands that run inside the lock envelope: all but ISMODE and SCHSTART
(40_register_interface.md R137). -/
def usesEnvelope : Instr → Bool
  | .ismode _ | .schstart _ | .busRd _ | .busWr _ => false
  | .rdreg _ | .wrreg _ _ | .rdburst _ _ | .wrburst _ _ => true
  | .setsf _ | .setbw _ | .setcr _ | .setcrc _ | .setpre _ | .setfreq _ | .setpwr _ => true
  | .getsf | .getbw | .getcr | .getcrc | .getpre | .getfreq => true
  | .setmode _ | .init | .transmit _ | .receive => true

/-- A command's own argument check, E0 of the envelope: only TRANSMIT has one (R137). -/
def argCheck (c : Config) : Instr → Option Err
  | .transmit len => payloadCheck c len
  | .rdreg _ | .wrreg _ _ | .rdburst _ _ | .wrburst _ _ => none
  | .setsf _ | .setbw _ | .setcr _ | .setcrc _ | .setpre _ | .setfreq _ | .setpwr _ => none
  | .getsf | .getbw | .getcr | .getcrc | .getpre | .getfreq => none
  | .setmode _ | .init | .receive | .ismode _ | .schstart _ | .busRd _ | .busWr _ => none

/-- A sender holds the lock exactly in the phases COPY, SENDING and RELEASE (44_arbiter_scheduler.md R242). -/
def phaseHolds : Phase → Bool
  | .copy | .sending | .release => true
  | .off | .sleeping | .waitlock => false

/-- The accepted command, as an instruction, has a property. -/
def State.cmdIs (s : State) (p : Instr → Bool) : Bool :=
  match decodeCmd s.host.cmd with
  | .ok i => p i
  | .error _ => false

/-- The memories are in canonical form and inside their spaces (20_memory.md R60). -/
structure MemoryOk (s : State) : Prop where
  regWf : s.dev.reg.wf = true
  regInside : s.dev.reg.inside 128 = true
  fifoWf : s.dev.fifo.wf = true
  fifoInside : s.dev.fifo.inside s.cfg.fifoSize = true

/-- The byte buffers have the lengths the spec gives them (10_state.md R23, R25, R32, R33). -/
structure BuffersOk (s : State) : Prop where
  hbuf : s.host.hbuf.length = 255
  rbuf : s.host.rbuf.length = 255
  peBuf : s.pe.buf.length = 255
  sBuf : ∀ i, (s.senders.get i).buf.length = s.cfg.recLen.get i
  snap : ∀ i, (s.snap.get i).length = s.cfg.recLen.get i

/-- The lock, the phases, the envelope and the sequencer agree (44_arbiter_scheduler.md R242, R252;
10_state.md R24). -/
structure LockOk (s : State) : Prop where
  host : s.host.pos = .e3 ↔ s.lockOwner = .host
  sender : ∀ i, phaseHolds (s.senders.get i).phase = true ↔ s.lockOwner = .s i
  idle : s.lockOwner = .none → s.seq = .idle
  sending : ∀ i, s.lockOwner = .s i → if (s.senders.get i).phase = .sending then isTransmitSeq s.seq = true else s.seq = .idle
  body : s.lockOwner = .host → s.cmdIs (fun i => bodySeq i s.seq) = true
  command : s.host.pos ≠ .e0 → s.host.busy = true ∧ s.cmdIs (fun i => usesEnvelope i && (argCheck s.cfg i).isNone) = true
  payload : isTransmitSeq s.seq = true → 1 ≤ s.pe.len.toNat ∧ s.pe.len.toNat ≤ s.cfg.maxPayload

/-- The output lines at step boundaries (10_state.md R30) and the bus port between brackets. -/
structure LinesOk (s : State) : Prop where
  sel : s.busFault = false → s.sel = false
  devRst : s.devRst = false
  bracket : s.busPort.addrByte = none

/-- A safe state: the invariant every step keeps. -/
structure Safe (s : State) : Prop where
  config : s.cfg.wf = true
  memory : MemoryOk s
  buffers : BuffersOk s
  lock : LockOk s
  lines : LinesOk s

/-- A poll in progress has not used up its bound (60_exceptions.md R293 (e)). -/
def PollBounded (s : State) : Prop :=
  s.cfg.completionMode = .poll → s.seq = ⟨.tWait, .none⟩ ∨ s.seq = ⟨.rWait, .none⟩ →
    s.pe.cnt.toNat < s.cfg.retryBound.toNat

/-- A sequencer position inside a mode transition that is retried: every one but SETMODE's (42_mode_controller.md
R192, R194). -/
def inRetry (q : Seq) : Bool := q.sub != .none && q.main != .mCmd

/-- A mode transition in progress has not used up its attempts (60_exceptions.md R293 (f)). -/
def AttemptsBounded (s : State) : Prop :=
  inRetry s.seq = true →
    if s.seq.sub = .mRd then s.pe.attempt.toNat < s.cfg.modeAttempts.toNat
    else s.pe.attempt.toNat ≤ s.cfg.modeAttempts.toNat

/-- The host holds the lock in the body of its command, at a given micro-step, on a bus that has not faulted and
will not fault in this step (60_exceptions.md R291: a healthy bus). -/
structure HostAt (s : State) (q : Seq) : Prop where
  pos : s.host.pos = .e3
  seq : s.seq = q
  owner : s.lockOwner = .host
  busFault : s.busFault = false
  busFails : s.busFails = false

/-- A command has just been accepted, the lock is free and the bus is healthy. -/
structure HostFresh (s : State) : Prop where
  pos : s.host.pos = .e0
  owner : s.lockOwner = .none
  busFault : s.busFault = false
  busFails : s.busFails = false

/-- Reads of registers give what is stored there: the reference device (20_memory.md R73). -/
def PlainReads (s : State) : Prop := s.cfg.unnamedReadsDraw = false

/-! ## Terms the claims use -/

/-- The rows of spec/opcode_table.json for host commands, as match and mask (30_encoding.md R110, R111). -/
def tableRows : List (CmdWord × CmdWord) :=
  [(0x1000000000, 0xFFFFFFFF80), (0x1100000000, 0xFFFFFF0080), (0x1200000000, 0xFFFFFF0080),
   (0x1300000000, 0xFFFFFF0080)] ++
  [(0x2000000000, 0xFFFFFFFF00), (0x2100000000, 0xFFFFFFFF00), (0x2200000000, 0xFFFFFFFF00),
   (0x2300000000, 0xFFFFFFFFFE), (0x2400000000, 0xFFFFFF0000), (0x2500000000, 0xFF00000000),
   (0x2600000000, 0xFFFFFFFF00)] ++
  [(0x2800000000, 0xFFFFFFFFFF), (0x2900000000, 0xFFFFFFFFFF), (0x2A00000000, 0xFFFFFFFFFF),
   (0x2B00000000, 0xFFFFFFFFFF), (0x2C00000000, 0xFFFFFFFFFF), (0x2D00000000, 0xFFFFFFFFFF)] ++
  [(0x3000000000, 0xFFFFFFFFF8), (0x3100000000, 0xFFFFFFFFF8), (0x3200000000, 0xFFFFFFFFFF),
   (0x4000000000, 0xFFFFFF0000), (0x4100000000, 0xFFFFFFFFFF), (0x5000000000, 0xFFFFFFFFE0)]

/-- The first micro-step of a host command's body (40_register_interface.md R138 to 43_packet_engine.md R215). -/
def startSeq : Instr → Seq
  | .rdreg _ | .wrreg _ _ | .rdburst _ _ | .wrburst _ _ => ⟨.xTxn, .none⟩
  | .setsf _ | .setbw _ | .setcr _ | .setcrc _ => ⟨.cRd, .none⟩
  | .setpre _ | .setfreq _ | .setpwr _ => ⟨.cWr, .none⟩
  | .getsf | .getbw | .getcr | .getcrc | .getpre | .getfreq => ⟨.gR1, .none⟩
  | .setmode _ => ⟨.mCmd, .mRd⟩
  | .init => ⟨.iRst, .none⟩
  | .transmit _ => ⟨.tEns, .none⟩
  | .receive => ⟨.rEns, .none⟩
  | .ismode _ | .schstart _ | .busRd _ | .busWr _ => .idle

/-- The working registers as the step that takes the lock leaves them: WRBURST and TRANSMIT copy `hbuf`
(20_memory.md R85). -/
def peAtStart (s : State) : Instr → PeRegs
  | .wrburst _ n => { s.pe with buf := overlay s.pe.buf (s.host.hbuf.take n.toNat) }
  | .transmit len =>
    { s.pe with len := len.setWidth 8, buf := overlay s.pe.buf (s.host.hbuf.take len.toNat) }
  | _ => s.pe

/-- A single write there is plain storage (20_memory.md R66). -/
def plainAddr (c : Config) (a : Addr) : Prop :=
  a ≠ c.aFifo ∧ a ≠ c.aIrqFlags ∧ a ≠ c.aFifoRxCurrent ∧ a ≠ c.aRxNbBytes

/-- A single read there gives what is stored (20_memory.md R66, R73). -/
def readsStored (s : State) (a : Addr) : Prop := a ≠ s.cfg.aFifo ∧ (a ∈ s.cfg.namedAddrs ∨ PlainReads s)

/-- The record of a completed transaction of the present lock holder (10_state.md R53). -/
def State.okRec (s : State) (kind : BusKind) (a : Addr) (data : List Byte) : TraceRec :=
  { kind := kind, addr := a, data := data, owner := s.lockOwner, faulted := false }

/-- A completed single read: nothing but its record (20_memory.md R66). -/
def State.afterRead (s : State) (a : Addr) : State :=
  { s with trace := s.trace ++ [s.okRec .rd a [s.devReg a]], sel := false }

/-- A completed single write of plain storage: one register and its record (R66). -/
def State.afterWrite (s : State) (a : Addr) (v : Byte) : State :=
  { s with
    dev := { s.dev with reg := s.dev.reg.write a.toNat v }, trace := s.trace ++ [s.okRec .wr a [v]], sel := false }

/-- The cell `k` places after the FIFO pointer (20_memory.md R67, R69). -/
def State.fifoCell (s : State) (k : Nat) : Nat := (s.fifoPtr + k) % s.cfg.fifoSize

/-- A completed read of `n` bytes at the FIFO register: the pointer moved and the record (20_memory.md R67). -/
def State.afterFifoRead (s : State) (n : Nat) : State :=
  { s with
    dev := { s.dev with reg := s.dev.reg.write s.cfg.aFifoAddrPtr.toNat (BitVec.ofNat 8 (s.fifoCell n)) },
    trace := s.trace ++ [s.okRec .rd s.cfg.aFifo ((List.range n).map (fun k => s.devFifo (s.fifoCell k)))],
    sel := false }

/-- The end of a host command with status OK (40_register_interface.md R137, E4 and E5). -/
def State.endedOk (s : State) (res : Word32) : State :=
  { s with
    seq := .idle, lockOwner := .none,
    host := { s.host with busy := false, pos := .e0, status := 0, res := res } }

/-- A command has ended with an error found before it held the lock: code and result in the port, the port free, and
nothing else of the machine touched (40_register_interface.md R137, 60_exceptions.md R282). -/
structure EndedUnlocked (s t : State) (code : Byte) : Prop where
  status : t.host.status = code
  res : t.host.res = 0
  busy : t.host.busy = false
  pos : t.host.pos = .e0
  cmd : t.host.cmd = s.host.cmd
  hbuf : t.host.hbuf = s.host.hbuf
  lockOwner : t.lockOwner = s.lockOwner
  seq : t.seq = s.seq
  pe : t.pe = s.pe
  dev : t.dev = s.dev
  trace : t.trace = s.trace
  busFault : t.busFault = s.busFault
  x : t.x = s.x
  modeShadow : t.modeShadow = s.modeShadow
  senders : t.senders = s.senders

/-- A command has ended with an error raised by its body (60_exceptions.md R282). -/
structure EndedByError (t : State) (code : Byte) (res : Word32) : Prop where
  status : t.host.status = code
  res : t.host.res = res
  busy : t.host.busy = false
  pos : t.host.pos = .e0
  lockOwner : t.lockOwner = .none
  seq : t.seq = .idle

/-- The interrupt latch and the remembered level, in this order, after the flags register takes a value: a change of the
register is observed in the same step, and a rising edge of the line sets the latch (60_exceptions.md R279, R280). -/
def State.edgesAfter (s : State) (v : Byte) : Bool × Bool :=
  if v = s.flags then (s.irqLatch, s.irqPrev)
  else (s.irqLatch || ((v &&& 0x48 != 0) && !s.irqPrev), v &&& 0x48 != 0)

/-- The end of a host command with an error raised by its body (40_register_interface.md R137; 60_exceptions.md R282). -/
def State.endedErr (s : State) (e : Err) : State :=
  { s with
    seq := .idle, lockOwner := .none,
    host := { s.host with busy := false, pos := .e0, status := e.code, res := e.info } }

/-- The end of a sender's transmission: the outcome in its own status, the lock kept until RELEASE
(44_arbiter_scheduler.md R247). -/
def State.sendEnded (s : State) (i : Sid) (code : Byte) : State :=
  { s with
    seq := .idle, senders := s.senders.set i { s.senders.get i with status := code, phase := .release } }

/-- The bus port with no bracket open, holding the bytes received last (40_register_interface.md R131). -/
def BusPort.closed (bytes : List Byte) : BusPort := { addrByte := none, out := [], want := 0, inp := bytes }

/-- A transaction has failed: the fault bit set, one record of it marked faulted and tagged with the holder of the lock, the
shadow and `x` as they were (40_register_interface.md R136, 10_state.md R27). -/
structure FailureRecorded (s t : State) : Prop where
  busFault : t.busFault = true
  trace : ∃ r : TraceRec, t.trace = s.trace ++ [r] ∧ r.owner = s.lockOwner ∧ r.faulted = true
  modeShadow : t.modeShadow = s.modeShadow
  x : t.x = s.x

/-- Every device register and every FIFO cell reads as before. -/
def sameDevice (s t : State) : Prop := (∀ a, t.devReg a = s.devReg a) ∧ ∀ k, t.devFifo k = s.devFifo k

/-- Every register but one reads as before, and every FIFO cell. -/
def sameDeviceBut (s t : State) (a : Addr) : Prop :=
  (∀ b, b ≠ a → t.devReg b = s.devReg b) ∧ ∀ k, t.devFifo k = s.devFifo k

/-- The register a micro-step of a host command writes by the bus, from the rule of the command; `A_FIFO` for a write
at the FIFO register. -/
def storeAddr (c : Config) : Instr → Seq → Option Addr
  | .wrreg a _, ⟨.xTxn, .none⟩ => some a
  | .wrburst a n, ⟨.xTxn, .none⟩ => if n = 0 then none else some a
  | .setsf _, ⟨.cWr, .none⟩ | .setcrc _, ⟨.cWr, .none⟩ => some c.aModemConfig2
  | .setbw _, ⟨.cWr, .none⟩ | .setcr _, ⟨.cWr, .none⟩ => some c.aModemConfig1
  | .setpre _, ⟨.cWr, .none⟩ => some c.aPreambleMsb
  | .setpre _, ⟨.cW2, .none⟩ => some c.aPreambleLsb
  | .setfreq _, ⟨.cWr, .none⟩ => some c.aFrfMsb
  | .setfreq _, ⟨.cW2, .none⟩ => some c.aFrfMid
  | .setfreq _, ⟨.cW3, .none⟩ => some c.aFrfLsb
  | .setpwr _, ⟨.cWr, .none⟩ => some c.aPaConfig
  | .setpwr _, ⟨.cW2, .none⟩ => some c.aPaDac
  | .setmode _, ⟨_, .mWr⟩ | .init, ⟨_, .mWr⟩ | .transmit _, ⟨_, .mWr⟩ | .receive, ⟨_, .mWr⟩ => some c.aOpmode
  | .init, ⟨.iOpw, .none⟩ => some c.aOpmode
  | .init, ⟨.iTxb, .none⟩ => some c.aFifoTxBase
  | .init, ⟨.iRxb, .none⟩ => some c.aFifoRxBase
  | .transmit _, ⟨.tPtr, .none⟩ | .receive, ⟨.rPtr, .none⟩ => some c.aFifoAddrPtr
  | .transmit _, ⟨.tFifo, .none⟩ => some c.aFifo
  | .transmit _, ⟨.tLen, .none⟩ => some c.aPayloadLength
  | .transmit _, ⟨.tClr, .none⟩ | .transmit _, ⟨.tAck, .none⟩ | .receive, ⟨.rAck, .none⟩ => some c.aIrqFlags
  | _, _ => none

/-- How many bytes a micro-step of a host command moves at the FIFO register, which is how far the pointer moves
(20_memory.md R67, R68). -/
def fifoMoves (s : State) : Instr → Seq → Nat
  | .rdreg a, ⟨.xTxn, .none⟩ | .wrreg a _, ⟨.xTxn, .none⟩ => if a = s.cfg.aFifo then 1 else 0
  | .rdburst a n, ⟨.xTxn, .none⟩ | .wrburst a n, ⟨.xTxn, .none⟩ => if a = s.cfg.aFifo then n.toNat else 0
  | .transmit _, ⟨.tFifo, .none⟩ => s.pe.len.toNat
  | .receive, ⟨.rFifo, .none⟩ => s.pe.len.toNat
  | _, _ => 0

/-- The event is the pulse of the block's reset input. -/
def isRst : Event → Bool
  | .rst => true
  | _ => false

/-- The moves that can change the device or the interrupt latch: the block's two bus masters and the device's own events,
the fault injections among them only under their switch (60_exceptions.md R284 to R286). -/
def movesDevice (c : Config) : Event → Bool
  | .exec _ | .sender _ _ _ | .devTxDone | .devRxDone _ _ _ => true
  | .devModeGlitch _ | .devFlag _ => c.deviceFaultInjection
  | .present _ | .hbufWrite _ _ | .snapWrite _ _ | .tick | .rst => false

/-- The one host command that writes sender registers (44_arbiter_scheduler.md R241). -/
def isSchstart : Instr → Bool
  | .schstart _ => true
  | .rdreg _ | .wrreg _ _ | .rdburst _ _ | .wrburst _ _ => false
  | .setsf _ | .setbw _ | .setcr _ | .setcrc _ | .setpre _ | .setfreq _ | .setpwr _ => false
  | .getsf | .getbw | .getcr | .getcrc | .getpre | .getfreq => false
  | .setmode _ | .ismode _ | .init | .transmit _ | .receive | .busRd _ | .busWr _ => false

/-- The next step of the machine makes a given move of a given script. -/
structure NextMove (s : State) (e : Event) (rest : List Event) : Prop where
  env : s.env = e :: rest
  bracket : s.busPort.addrByte = none

/-- A host command that writes the modem configuration tuple: a setter or INIT (10_state.md R21). -/
def writesTuple : Instr → Bool
  | .setsf _ | .setbw _ | .setcr _ | .setcrc _ | .setpre _ | .setfreq _ | .setpwr _ | .init => true
  | .rdreg _ | .wrreg _ _ | .rdburst _ _ | .wrburst _ _ => false
  | .getsf | .getbw | .getcr | .getcrc | .getpre | .getfreq => false
  | .setmode _ | .ismode _ | .transmit _ | .receive | .schstart _ | .busRd _ | .busWr _ => false

end Sys2Proof.Machine
end

