-- ==== Sys2Proof/Certificates/Slice0/Obligations.lean ====
section
/-! DEFINITION. The statements for the provers. Each docstring names the rules of spec/ it formalises; "log" is notes/assumptions. Every statement ranges over every configuration (log 1). -/

open Sys2Proof Sys2Proof.Machine

/-! ## Encoding -/

/-- R100, R110 to R112: the decoder gives every instruction back from its words, every operand at every value. -/
def Obligations.DecodeInvertsEncode : Prop :=
  ∀ i : Instr, i.wf = true → decodeTableWord (encode i).nbits (encode i).bits = some i

/-- R114: each word has one meaning; what decodes to an instruction is that instruction's encoding. -/
def Obligations.EncodeInvertsDecode : Prop :=
  ∀ (n w : Nat) (i : Instr), decodeTableWord n w = some i → encode i = ⟨n, w⟩

/-- R100, R111, R113 and the opcode table: the legal command words are those that equal the match of some row under its
mask; on the bus nothing is reserved, bit 7 of the address byte is the direction and bits 6:0 the register. -/
def Obligations.LegalWordsAreTheTableRows : Prop :=
  (∀ w : CmdWord, (∃ i, decodeCmd w = .ok i) ↔ ∃ r ∈ tableRows, w &&& r.2 = r.1) ∧
  ∀ b : Byte,
    (b &&& 0x80 = 0x80 → decodeBus b = .busWr (b.extractLsb' 0 7)) ∧
    (b &&& 0x80 = 0x00 → decodeBus b = .busRd (b.extractLsb' 0 7))

/-- R115, R138, R139, R141, R152, R158, R192, R195, R211, R241: words the spec writes out, one or more a family. -/
def Obligations.SampleWordsDecode : Prop :=
  decodeCmd 0x1000000001 = .ok (.rdreg 0x01) ∧ decodeCmd 0x1100000812 = .ok (.wrreg 0x12 0x08) ∧
  decodeCmd 0x1200000300 = .ok (.rdburst 0x00 3) ∧ decodeCmd 0x1300000200 = .ok (.wrburst 0x00 2) ∧
  decodeCmd 0x2000000009 = .ok (.setsf 9) ∧ decodeCmd 0x253689CAC0 = .ok (.setfreq 915000000) ∧
  decodeCmd 0x2A00000000 = .ok .getcr ∧ decodeCmd 0x3000000001 = .ok (.setmode 1) ∧
  decodeCmd 0x3200000000 = .ok .init ∧ decodeCmd 0x4000000005 = .ok (.transmit 5) ∧
  decodeCmd 0x4100000000 = .ok .receive ∧ decodeCmd 0x500000001F = .ok (.schstart 0x1F) ∧
  decodeBus 0x92 = .busWr 0x12 ∧ decodeBus 0x12 = .busRd 0x12

/-! ## The step -/

/-- R114, R24, R100, R131: a step runs the decoded instruction. When the executor moves on an accepted command, the step
is that command's next micro-step; the step adds only that the move is taken from the script and carries the bus draw
(log 5). An open bracket is run first, as the transaction its address byte names (log 8). -/
def Obligations.StepRunsDecodedInstruction : Prop :=
  (∀ (s : State) (f : Bool) (rest : List Event) (i : Instr),
    NextMove s (.exec f) rest → s.host.busy = true → decodeCmd s.host.cmd = .ok i →
      step s = exec i { s with env := rest, busFails := f }) ∧
  ∀ (s : State) (b : Byte), s.busPort.addrByte = some b → step s = exec (decodeBus b) s

/-- R113, R277: a word that matches no row of the table finishes at once with IllegalCommand and `res = 0`, and nothing
else changes. -/
def Obligations.IllegalCommandFinishesAtOnce : Prop :=
  ∀ (s : State) (f : Bool) (rest : List Event),
    NextMove s (.exec f) rest → s.host.busy = true → (∀ r ∈ tableRows, s.host.cmd &&& r.2 ≠ r.1) →
      step s = .next { s with
        env := rest, busFails := f,
        host := { s.host with busy := false, pos := .e0, status := 7, res := 0 } }

/-! ## The lock envelope -/

/-- R137 E0, E1 (log 9): a command whose arguments pass asks for the lock, with a deadline only under a finite lock
timeout; on a faulted bus it ends with BusFault, no lock request and no transaction. -/
def Obligations.CommandEntersEnvelope : Prop :=
  ∀ (i : Instr) (s : State), usesEnvelope i = true → argCheck s.cfg i = none → s.host.pos = .e0 →
    (s.busFault = false →
      exec i s = .next { s with host := { s.host with
        pos := .e2 (match s.cfg.lockTimeoutMs with
          | none => none
          | some w => some (s.now + w)) } }) ∧
    (s.busFault = true → ∃ t, exec i s = .next t ∧ EndedUnlocked s t 1)

/-- R137 E2, R84, R85 (log 9): test and set of a free lock are one step, which copies `hbuf` where the command has a
payload; a held lock is waited for, without a bound or until the deadline. -/
def Obligations.LockTakenInOneStep : Prop :=
  ∀ (i : Instr) (s : State) (d : Option Word32), usesEnvelope i = true → s.host.pos = .e2 d →
    (s.lockOwner = .none → s.busFault = false →
      exec i s = .next { s with
        lockOwner := .host, host := { s.host with pos := .e3 }, seq := startSeq i, pe := peAtStart s i }) ∧
    (s.lockOwner = .none → s.busFault = true → ∃ t, exec i s = .next t ∧ EndedUnlocked s t 1) ∧
    (s.lockOwner ≠ .none → (d = none ∨ ∃ w, d = some w ∧ 2 ^ 31 ≤ (s.now - w).toNat) → exec i s = .next s) ∧
    (s.lockOwner ≠ .none → (∃ w, d = some w ∧ (s.now - w).toNat < 2 ^ 31) →
      ∃ t, exec i s = .next t ∧ EndedUnlocked s t 8)

/-- R137 E4, E5, R282: whatever its body does, a command either goes on holding the lock or ends in one step with the
lock free, the sequencer idle, the port free and one of the codes its body can end with. -/
def Obligations.BodyKeepsOrReleasesLock : Prop :=
  ∀ (i : Instr) (s t : State), usesEnvelope i = true → s.host.pos = .e3 → exec i s = .next t →
    (t.host.pos = .e3 ∧ t.host.busy = s.host.busy ∧ t.lockOwner = s.lockOwner ∧ t.host.status = s.host.status ∧
      t.host.res = s.host.res) ∨
    (t.host.pos = .e0 ∧ t.host.busy = false ∧ t.lockOwner = .none ∧ t.seq = .idle ∧ t.host.status.toNat ≤ 6)

/-! ## Register Interface -/

/-- R138, R66, R67, R73: RDREG, for every register: what is stored, the FIFO byte at the pointer, or (under the safe
switch, log 17) a free value at an unnamed address. -/
def Obligations.RdregReturnsTheRegister : Prop :=
  ∀ (s : State) (a : Addr), HostAt s ⟨.xTxn, .none⟩ →
    (readsStored s a → exec (.rdreg a) s = .next ((s.afterRead a).endedOk ((s.devReg a).setWidth 32))) ∧
    (a = s.cfg.aFifo → s.fifoPtr < s.cfg.fifoSize →
      exec (.rdreg a) s = .next ((s.afterFifoRead 1).endedOk ((s.devFifo s.fifoPtr).setWidth 32))) ∧
    (a ≠ s.cfg.aFifo → ¬ readsStored s a →
      ∃ t, exec (.rdreg a) s = .next t ∧ t.host.status = 0 ∧ t.host.res = (Config.freeByte s.drawn).setWidth 32 ∧
        t.drawn = s.drawn + 1 ∧ t.dev = s.dev ∧ t.lockOwner = .none)

/-- R139, R66, R68, R70, R71, R280: WRREG, for every register: plain storage, write-one-to-clear with the interrupt line
observed (log 13), a free value in the two registers the device owns, the FIFO cell at the pointer. -/
def Obligations.WrregWritesTheRegister : Prop :=
  ∀ (s : State) (a : Addr) (v : Byte), HostAt s ⟨.xTxn, .none⟩ →
    (plainAddr s.cfg a → exec (.wrreg a v) s = .next ((s.afterWrite a v).endedOk 0)) ∧
    (a ≠ s.cfg.aFifo → a = s.cfg.aIrqFlags →
      ∃ t, exec (.wrreg a v) s = .next t ∧ t.devReg a = s.devReg a &&& ~~~v ∧ sameDeviceBut s t a ∧
        (t.irqLatch, t.irqPrev) = s.edgesAfter (s.devReg a &&& ~~~v) ∧
        t.trace = s.trace ++ [s.okRec .wr a [v]] ∧ t.host = (s.endedOk 0).host ∧ t.lockOwner = .none) ∧
    (a ≠ s.cfg.aFifo → a ≠ s.cfg.aIrqFlags → a = s.cfg.aFifoRxCurrent ∨ a = s.cfg.aRxNbBytes →
      ∃ t, exec (.wrreg a v) s = .next t ∧ t.devReg a = Config.freeByte s.drawn ∧ t.drawn = s.drawn + 1 ∧
        sameDeviceBut s t a ∧ t.trace = s.trace ++ [s.okRec .wr a [v]] ∧ t.host = (s.endedOk 0).host ∧
        t.lockOwner = .none) ∧
    (a = s.cfg.aFifo → s.fifoPtr < s.cfg.fifoSize →
      ∃ t, exec (.wrreg a v) s = .next t ∧ t.devFifo s.fifoPtr = v ∧ (∀ k, k ≠ s.fifoPtr → t.devFifo k = s.devFifo k) ∧
        t.devReg s.cfg.aFifoAddrPtr = BitVec.ofNat 8 (s.fifoCell 1) ∧
        (∀ b, b ≠ s.cfg.aFifoAddrPtr → t.devReg b = s.devReg b) ∧
        t.trace = s.trace ++ [s.okRec .wr a [v]] ∧ t.host = (s.endedOk 0).host ∧ t.lockOwner = .none)

/-- R140, R67, R73: RDBURST of 0 bytes, of 1 byte anywhere (a free value at an unnamed address under the safe switch,
log 17), and of any number at the FIFO. -/
def Obligations.RdburstFillsTheBuffer : Prop :=
  ∀ (s : State) (a : Addr) (n : Byte), HostAt s ⟨.xTxn, .none⟩ →
    (n = 0 → exec (.rdburst a n) s = .next (({ s with host := { s.host with rlen := 0 } } : State).endedOk 0)) ∧
    (n = 1 → readsStored s a →
      exec (.rdburst a n) s = .next ((({ s with host := { s.host with
        rbuf := overlay s.host.rbuf [s.devReg a], rlen := 1 } } : State).afterRead a).endedOk 1)) ∧
    (n = 1 → a ≠ s.cfg.aFifo → ¬ readsStored s a →
      ∃ t, exec (.rdburst a n) s = .next t ∧ t.drawn = s.drawn + 1 ∧ t.dev = s.dev ∧ t.lockOwner = .none ∧
        t.trace = s.trace ++ [s.okRec .rd a [Config.freeByte s.drawn]] ∧
        t.host = { (s.endedOk 1).host with rbuf := overlay s.host.rbuf [Config.freeByte s.drawn], rlen := 1 }) ∧
    (n ≠ 0 → a = s.cfg.aFifo → s.fifoPtr < s.cfg.fifoSize →
      exec (.rdburst a n) s = .next ((({ s with host := { s.host with
        rbuf := overlay s.host.rbuf ((List.range n.toNat).map (fun k => s.devFifo (s.fifoCell k))),
        rlen := n } } : State).afterFifoRead n.toNat).endedOk (n.setWidth 32)))

/-- R141, R66, R68, R70, R71, R280: WRBURST of 0 bytes, of 1 byte to every register (plain storage, the flags with the line
observed, log 13, a free value in the two registers the device owns; at the operating-mode register the whole byte, log 28),
and of any number at the FIFO, where of two bytes stored to one cell the later stays. -/
def Obligations.WrburstStoresTheBuffer : Prop :=
  ∀ (s : State) (a : Addr) (n : Byte), HostAt s ⟨.xTxn, .none⟩ → s.pe.buf.length = 255 →
    (n = 0 → exec (.wrburst a n) s = .next (s.endedOk 0)) ∧
    (n = 1 → plainAddr s.cfg a → exec (.wrburst a n) s = .next ((s.afterWrite a (s.pe.buf.headD 0)).endedOk 1)) ∧
    (n = 1 → a ≠ s.cfg.aFifo → a = s.cfg.aIrqFlags →
      ∃ t, exec (.wrburst a n) s = .next t ∧ t.devReg a = s.devReg a &&& ~~~(s.pe.buf.headD 0) ∧ sameDeviceBut s t a ∧
        (t.irqLatch, t.irqPrev) = s.edgesAfter (s.devReg a &&& ~~~(s.pe.buf.headD 0)) ∧
        t.trace = s.trace ++ [s.okRec .wr a [s.pe.buf.headD 0]] ∧ t.host = (s.endedOk 1).host ∧ t.lockOwner = .none) ∧
    (n = 1 → a ≠ s.cfg.aFifo → a ≠ s.cfg.aIrqFlags → a = s.cfg.aFifoRxCurrent ∨ a = s.cfg.aRxNbBytes →
      ∃ t, exec (.wrburst a n) s = .next t ∧ t.devReg a = Config.freeByte s.drawn ∧ t.drawn = s.drawn + 1 ∧
        sameDeviceBut s t a ∧ t.trace = s.trace ++ [s.okRec .wr a [s.pe.buf.headD 0]] ∧
        t.host = (s.endedOk 1).host ∧ t.lockOwner = .none) ∧
    (n ≠ 0 → a = s.cfg.aFifo → s.fifoPtr < s.cfg.fifoSize →
      ∃ t, exec (.wrburst a n) s = .next t ∧
        (∀ k, k < n.toNat → (∀ j, k < j → j < n.toNat → s.fifoCell j ≠ s.fifoCell k) →
          s.pe.buf[k]? = some (t.devFifo (s.fifoCell k))) ∧
        (∀ c, (∀ k, k < n.toNat → s.fifoCell k ≠ c) → t.devFifo c = s.devFifo c) ∧
        t.devReg s.cfg.aFifoAddrPtr = BitVec.ofNat 8 (s.fifoCell n.toNat) ∧
        (∀ b, b ≠ s.cfg.aFifoAddrPtr → t.devReg b = s.devReg b) ∧
        t.trace = s.trace ++ [s.okRec .wr a (s.pe.buf.take n.toNat)] ∧
        t.host = (s.endedOk (n.setWidth 32)).host ∧ t.lockOwner = .none)

/-- R74, U4: a burst of two or more bytes off the FIFO has no meaning; on a healthy bus the machine refuses it by name,
for the host's commands and on the bus port (log 8) alike. -/
def Obligations.BurstOffFifoRefused : Prop :=
  ∀ (s : State) (a : Addr), a ≠ s.cfg.aFifo →
    (∀ n : Byte, HostAt s ⟨.xTxn, .none⟩ → s.pe.buf.length = 255 → 2 ≤ n.toNat →
      exec (.rdburst a n) s = .refused .burstOffFifo ∧ exec (.wrburst a n) s = .refused .burstOffFifo) ∧
    (s.lockOwner ≠ .none → s.busFault = false → s.busFails = false →
      (2 ≤ s.busPort.want.toNat → exec (.busRd a) s = .refused .burstOffFifo) ∧
      (2 ≤ s.busPort.out.length → exec (.busWr a) s = .refused .burstOffFifo))

/-- R132 to R135, R66 to R73, R280 (log 8): the two transaction kinds of the bus port, single and burst, at every kind of
register (log 13, 17), with the lock held by anyone; a bracket with no data byte is no transaction (D32). -/
def Obligations.BusTransactionsComplete : Prop :=
  ∀ (s : State) (a : Addr), s.lockOwner ≠ .none → s.busFault = false → s.busFails = false →
    (s.busPort.want = 0 → exec (.busRd a) s = .next { s with busPort := .closed [] }) ∧
    (s.busPort.out = [] → exec (.busWr a) s = .next { s with busPort := .closed [] }) ∧
    (s.busPort.want = 1 → readsStored s a →
      exec (.busRd a) s = .next { s.afterRead a with busPort := .closed [s.devReg a] }) ∧
    (s.busPort.want = 1 → a ≠ s.cfg.aFifo → ¬ readsStored s a →
      ∃ t, exec (.busRd a) s = .next t ∧ t.busPort = .closed [Config.freeByte s.drawn] ∧ t.drawn = s.drawn + 1 ∧
        t.dev = s.dev ∧ t.trace = s.trace ++ [s.okRec .rd a [Config.freeByte s.drawn]]) ∧
    (s.busPort.want ≠ 0 → a = s.cfg.aFifo → s.fifoPtr < s.cfg.fifoSize →
      exec (.busRd a) s = .next { s.afterFifoRead s.busPort.want.toNat with
        busPort := .closed ((List.range s.busPort.want.toNat).map (fun k => s.devFifo (s.fifoCell k))) }) ∧
    (∀ v, s.busPort.out = [v] → plainAddr s.cfg a →
      exec (.busWr a) s = .next { s.afterWrite a v with busPort := .closed [] }) ∧
    (∀ v, s.busPort.out = [v] → a ≠ s.cfg.aFifo → a = s.cfg.aIrqFlags →
      ∃ t, exec (.busWr a) s = .next t ∧ t.devReg a = s.devReg a &&& ~~~v ∧ sameDeviceBut s t a ∧
        (t.irqLatch, t.irqPrev) = s.edgesAfter (s.devReg a &&& ~~~v) ∧
        t.trace = s.trace ++ [s.okRec .wr a [v]] ∧ t.busPort = .closed []) ∧
    (∀ v, s.busPort.out = [v] → a ≠ s.cfg.aFifo → a ≠ s.cfg.aIrqFlags →
      a = s.cfg.aFifoRxCurrent ∨ a = s.cfg.aRxNbBytes →
      ∃ t, exec (.busWr a) s = .next t ∧ t.devReg a = Config.freeByte s.drawn ∧ t.drawn = s.drawn + 1 ∧
        sameDeviceBut s t a ∧ t.trace = s.trace ++ [s.okRec .wr a [v]] ∧ t.busPort = .closed []) ∧
    (s.busPort.out ≠ [] → a = s.cfg.aFifo → s.fifoPtr < s.cfg.fifoSize →
      ∃ t, exec (.busWr a) s = .next t ∧
        (∀ k, (h : k < s.busPort.out.length) →
          (∀ j, k < j → j < s.busPort.out.length → s.fifoCell j ≠ s.fifoCell k) →
            t.devFifo (s.fifoCell k) = s.busPort.out[k]) ∧
        (∀ c, (∀ k, k < s.busPort.out.length → s.fifoCell k ≠ c) → t.devFifo c = s.devFifo c) ∧
        t.devReg s.cfg.aFifoAddrPtr = BitVec.ofNat 8 (s.fifoCell s.busPort.out.length) ∧
        (∀ b, b ≠ s.cfg.aFifoAddrPtr → t.devReg b = s.devReg b) ∧
        t.trace = s.trace ++ [s.okRec .wr a s.busPort.out] ∧ t.busPort = .closed [])

/-! ## Modem Configurator -/

/-- R151 to R155, R150: the four setters of a field read the register, then write it back with the field replaced by the
clamped operand, and end with the operand in `x` and `res`. -/
def Obligations.FieldSettersReadModifyWrite : Prop :=
  ∀ (s : State) (v : Byte) (en : BitVec 1), s.cfg.wf = true →
    (HostAt s ⟨.cRd, .none⟩ → ∀ (i : Instr) (a : Addr),
      (i, a) ∈ [(.setsf v, s.cfg.aModemConfig2), (.setbw v, s.cfg.aModemConfig1), (.setcr v, s.cfg.aModemConfig1),
        (.setcrc en, s.cfg.aModemConfig2)] →
        exec i s = .next { s.afterRead a with
          seq := ⟨.cWr, .none⟩, pe := { s.pe with tmp := s.devReg a } }) ∧
    (HostAt s ⟨.cWr, .none⟩ →
      exec (.setsf v) s =
        .next (({ s with x := { s.x with sf := some ((clampSf v).setWidth 4) } } : State).afterWrite s.cfg.aModemConfig2
          ((s.pe.tmp &&& (0x0F : Byte)) ||| (clampSf v <<< 4)) |>.endedOk ((clampSf v).setWidth 32)) ∧
      exec (.setbw v) s =
        .next (({ s with x := { s.x with bw := some ((clampBw v).setWidth 4) } } : State).afterWrite s.cfg.aModemConfig1
          ((s.pe.tmp &&& (0x0F : Byte)) ||| (clampBw v <<< 4)) |>.endedOk ((clampBw v).setWidth 32)) ∧
      exec (.setcr v) s =
        .next (({ s with x := { s.x with cr := some ((clampCr v).setWidth 3) } } : State).afterWrite s.cfg.aModemConfig1
          ((s.pe.tmp &&& (0xF1 : Byte)) ||| (clampCr v <<< 1)) |>.endedOk ((clampCr v).setWidth 32)) ∧
      exec (.setcrc en) s =
        .next (({ s with x := { s.x with crc := some en } } : State).afterWrite s.cfg.aModemConfig2
          ((s.pe.tmp &&& (0xFB : Byte)) ||| (en.setWidth 8 <<< 2)) |>.endedOk (en.setWidth 32)))

/-- R152 to R154, R112, R160, R169: the clamps, as numbers; SETPWR reads its operand as a signed byte and selects a valid
setting, 2 to 17 or PWR_MAX_DBM, such that none is nearer, and of two at the same distance it is the lower. -/
def Obligations.OperandsClampToNearestValid : Prop :=
  (∀ v : Byte,
    (clampSf v).toNat = max 6 (min v.toNat 12) ∧ (clampBw v).toNat = min v.toNat 9 ∧
      (clampCr v).toNat = max 1 (min v.toNat 4)) ∧
  (∀ (c : Config) (v : Byte), (powerSetting c v).toInt = nearestPower v.toInt c.pwrMaxDbm.toInt) ∧
  ∀ d m : Int,
    ((2 ≤ nearestPower d m ∧ nearestPower d m ≤ 17) ∨ nearestPower d m = m) ∧
      ∀ p : Int, (2 ≤ p ∧ p ≤ 17) ∨ p = m →
        (d - nearestPower d m).natAbs ≤ (d - p).natAbs ∧
          ((d - nearestPower d m).natAbs = (d - p).natAbs → nearestPower d m ≤ p)

/-- R156, R158, R75 (a), (b): every micro-step of SETPRE and SETFREQ: whole bytes, the most significant first, no read;
`x` keeps the operand as given. -/
def Obligations.WideSettersWriteBytesInOrder : Prop :=
  ∀ (s : State) (n : BitVec 16) (f : Word32), s.cfg.wf = true →
    (HostAt s ⟨.cWr, .none⟩ →
      exec (.setpre n) s =
        .next { s.afterWrite s.cfg.aPreambleMsb (n.extractLsb' 8 8) with seq := ⟨.cW2, .none⟩ } ∧
      exec (.setfreq f) s =
        .next { s.afterWrite s.cfg.aFrfMsb (BitVec.ofNat 8 (frf f.toNat s.cfg.oscHz / 2 ^ 16)) with
          seq := ⟨.cW2, .none⟩ }) ∧
    (HostAt s ⟨.cW2, .none⟩ →
      exec (.setpre n) s =
        .next (({ s with x := { s.x with pre := some n } } : State).afterWrite s.cfg.aPreambleLsb (n.extractLsb' 0 8)
          |>.endedOk (n.setWidth 32)) ∧
      exec (.setfreq f) s =
        .next { s.afterWrite s.cfg.aFrfMid (BitVec.ofNat 8 (frf f.toNat s.cfg.oscHz / 2 ^ 8)) with
          seq := ⟨.cW3, .none⟩ }) ∧
    (HostAt s ⟨.cW3, .none⟩ →
      exec (.setfreq f) s =
        .next (({ s with x := { s.x with freq := some f } } : State).afterWrite s.cfg.aFrfLsb
          (BitVec.ofNat 8 (frf f.toNat s.cfg.oscHz)) |>.endedOk (BitVec.ofNat 32 (frf f.toNat s.cfg.oscHz))))

/-- R157: the frequency register value is the nearest integer to `f * 2^19 / osc`, a half rounded up, or the largest
24-bit value where that is larger. -/
def Obligations.FrequencyRegisterIsNearest : Prop :=
  ∀ f osc : Nat, 0 < osc →
    (f * 2 ^ 20 + osc < 2 * osc * (2 ^ 24 - 1) →
      2 * osc * frf f osc ≤ f * 2 ^ 20 + osc ∧ f * 2 ^ 20 + osc < 2 * osc * (frf f osc + 1)) ∧
    (2 * osc * (2 ^ 24 - 1) ≤ f * 2 ^ 20 + osc → frf f osc = 2 ^ 24 - 1)

/-- R159: the inverse recovers the frequency within `osc / 2^20 + 1/2`, hence within one frequency step for every
oscillator above `2^19`. -/
def Obligations.FrequencyRoundTrip : Prop :=
  ∀ (f : Word32) (osc : Nat), 0 < osc → osc < 2 ^ 27 → f.toNat * 2 ^ 20 + osc < 2 * osc * 2 ^ 24 →
    ((freqOf (frf f.toNat osc) osc : Int) - f.toNat).natAbs * 2 ^ 20 ≤ osc + 2 ^ 19 ∧
      (2 ^ 19 < osc → ((freqOf (frf f.toNat osc) osc : Int) - f.toNat).natAbs * 2 ^ 19 < osc)

/-- R160: SETPWR writes both power registers, the configuration first, and ends with the selected setting. -/
def Obligations.SetpwrWritesThePair : Prop :=
  ∀ (s : State) (d p : Byte), s.cfg.wf = true → p = powerSetting s.cfg d →
    (HostAt s ⟨.cWr, .none⟩ →
      exec (.setpwr d) s =
        .next { s.afterWrite s.cfg.aPaConfig (if p = s.cfg.pwrMaxDbm then s.cfg.paCfgMax else 0x80 ||| (p - 2)) with
          seq := ⟨.cW2, .none⟩ }) ∧
    (HostAt s ⟨.cW2, .none⟩ →
      exec (.setpwr d) s =
        .next (({ s with x := { s.x with pwr := some p } } : State).afterWrite s.cfg.aPaDac
          (if p = s.cfg.pwrMaxDbm then s.cfg.paDacMax else s.cfg.paDacDefault) |>.endedOk (p.setWidth 32)))

/-- R161, R160 (log 9): after a SETPWR that takes its lock, runs and ends OK the two power registers are a matched pair,
wherever the two auxiliary bytes differ. -/
def Obligations.PowerPairMatched : Prop :=
  ∀ (s : State) (d : Byte), s.cfg.wf = true → HostFresh s → s.cfg.paDacDefault ≠ s.cfg.paDacMax →
      ∃ t, execTimes 4 (.setpwr d) s = .next t ∧ t.host.status = 0 ∧
        (t.devReg s.cfg.aPaDac = s.cfg.paDacMax ↔ t.devReg s.cfg.aPaConfig = s.cfg.paCfgMax)

/-- R162 to R167: every micro-step of the six getters: the raw field of the device's register; the wide ones keep the
bytes read and put them together, most significant first. -/
def Obligations.GettersReturnDeviceFields : Prop :=
  ∀ s : State, s.cfg.wf = true →
    (HostAt s ⟨.gR1, .none⟩ →
      exec .getsf s =
        .next ((s.afterRead s.cfg.aModemConfig2).endedOk ((s.devReg s.cfg.aModemConfig2 >>> 4).setWidth 32)) ∧
      exec .getbw s =
        .next ((s.afterRead s.cfg.aModemConfig1).endedOk ((s.devReg s.cfg.aModemConfig1 >>> 4).setWidth 32)) ∧
      exec .getcr s =
        .next ((s.afterRead s.cfg.aModemConfig1).endedOk (((s.devReg s.cfg.aModemConfig1 >>> 1) &&& 7).setWidth 32)) ∧
      exec .getcrc s =
        .next ((s.afterRead s.cfg.aModemConfig2).endedOk (((s.devReg s.cfg.aModemConfig2 >>> 2) &&& 1).setWidth 32)) ∧
      exec .getpre s = .next { s.afterRead s.cfg.aPreambleMsb with
        seq := ⟨.gR2, .none⟩, pe := { s.pe with getHi := s.devReg s.cfg.aPreambleMsb } } ∧
      exec .getfreq s = .next { s.afterRead s.cfg.aFrfMsb with
        seq := ⟨.gR2, .none⟩, pe := { s.pe with getHi := s.devReg s.cfg.aFrfMsb } }) ∧
    (HostAt s ⟨.gR2, .none⟩ →
      exec .getpre s = .next ((s.afterRead s.cfg.aPreambleLsb).endedOk
        (BitVec.ofNat 32 (s.pe.getHi.toNat * 2 ^ 8 + (s.devReg s.cfg.aPreambleLsb).toNat))) ∧
      exec .getfreq s = .next { s.afterRead s.cfg.aFrfMid with
        seq := ⟨.gR3, .none⟩, pe := { s.pe with getMid := s.devReg s.cfg.aFrfMid } }) ∧
    (HostAt s ⟨.gR3, .none⟩ →
      exec .getfreq s = .next ((s.afterRead s.cfg.aFrfLsb).endedOk
        (BitVec.ofNat 32 (freqOf
          (s.pe.getHi.toNat * 2 ^ 16 + s.pe.getMid.toNat * 2 ^ 8 + (s.devReg s.cfg.aFrfLsb).toNat) s.cfg.oscHz))))

/-- R150 to R167 (log 9): a setter run alone on a healthy bus, then the getter of the same parameter: both end OK and the getter
returns the clamped value (for the frequency, what the written register stands for). -/
def Obligations.SetterThenGetter : Prop :=
  ∀ (s : State) (v : Byte) (en : BitVec 1) (p : BitVec 16) (f : Word32), s.cfg.wf = true → HostFresh s →
    ∀ (set get : Instr) (m n : Nat) (r : Word32),
      (set, m, get, n, r) ∈
        [(.setsf v, 4, .getsf, 3, (clampSf v).setWidth 32), (.setbw v, 4, .getbw, 3, (clampBw v).setWidth 32),
         (.setcr v, 4, .getcr, 3, (clampCr v).setWidth 32), (.setcrc en, 4, .getcrc, 3, en.setWidth 32),
         (.setpre p, 4, .getpre, 4, p.setWidth 32),
         (.setfreq f, 5, .getfreq, 5, BitVec.ofNat 32 (freqOf (frf f.toNat s.cfg.oscHz) s.cfg.oscHz))] →
      ∃ t u, execTimes m set s = .next t ∧ t.host.status = 0 ∧ execTimes n get t = .next u ∧ u.host.status = 0 ∧
        u.host.res = r

/-! ## Mode Controller -/

/-- R191, R192: the three micro-steps of SETMODE, the last one where the read-back shows the target. -/
def Obligations.SetmodeVerifiesTheWrite : Prop :=
  ∀ (s : State) (m : ModeCode), s.cfg.wf = true →
    (HostAt s ⟨.mCmd, .mRd⟩ →
      exec (.setmode m) s = .next { s.afterRead s.cfg.aOpmode with
        seq := ⟨.mCmd, .mWr⟩, pe := { s.pe with modeByte := s.devReg s.cfg.aOpmode } }) ∧
    (HostAt s ⟨.mCmd, .mWr⟩ →
      exec (.setmode m) s = .next { s.afterWrite s.cfg.aOpmode ((s.pe.modeByte &&& 0xF8) ||| m.setWidth 8) with
        seq := ⟨.mCmd, .mVf⟩ }) ∧
    (HostAt s ⟨.mCmd, .mVf⟩ → s.devMode = m →
      exec (.setmode m) s =
        .next (({ s with modeShadow := m } : State).afterRead s.cfg.aOpmode |>.endedOk (m.setWidth 32)))

/-- R198, R191, R192, R195, R102: a read-back that shows another mode ends SETMODE with ModeVerificationFailed, the byte read
back in `res` and its mode field in the shadow, with no retry; INIT's check of the three fields it wrote likewise. -/
def Obligations.ReadBackMismatchFails : Prop :=
  ∀ (s : State) (m : ModeCode), s.cfg.wf = true →
    (HostAt s ⟨.mCmd, .mVf⟩ → s.devMode ≠ m →
      ∃ t, exec (.setmode m) s = .next t ∧ EndedByError t 2 ((s.devReg s.cfg.aOpmode).setWidth 32) ∧
        t.modeShadow = s.devMode ∧ sameDevice s t ∧
        t.trace = s.trace ++ [s.okRec .rd s.cfg.aOpmode [s.devReg s.cfg.aOpmode]]) ∧
    (HostAt s ⟨.iOpv, .none⟩ →
      s.devReg s.cfg.aOpmode &&& 0x8F ≠ 0x80 ||| (if s.cfg.lowFreqMode then 0x08 else 0x00) →
      ∃ t, exec .init s = .next t ∧ EndedByError t 2 ((s.devReg s.cfg.aOpmode).setWidth 32) ∧
        t.modeShadow = s.devMode ∧ sameDevice s t ∧
        t.trace = s.trace ++ [s.okRec .rd s.cfg.aOpmode [s.devReg s.cfg.aOpmode]])

/-- R192, R193, R196 (log 9): SETMODE run alone on a healthy bus sets the device's mode and the shadow, keeps bits 7:3, and a
mode query after it answers for every mode. -/
def Obligations.SetmodeThenIsmode : Prop :=
  ∀ (s : State) (m k : ModeCode), s.cfg.wf = true → HostFresh s →
    ∃ t u, execTimes 5 (.setmode m) s = .next t ∧ t.host.status = 0 ∧ t.modeShadow = m ∧ t.devMode = m ∧
      t.devReg s.cfg.aOpmode >>> 3 = s.devReg s.cfg.aOpmode >>> 3 ∧ t.lockOwner = .none ∧
      exec (.ismode k) t = .next u ∧ u.host.res = if m = k then 1 else 0

/-- R193: ISMODE answers from the shadow in one step, in every state, with no lock, no transaction and no error. -/
def Obligations.IsmodeAnswersFromShadow : Prop :=
  ∀ (s : State) (m : ModeCode),
    exec (.ismode m) s = .next { s with host := { s.host with
      busy := false, pos := .e0, status := 0, res := if s.modeShadow = m then 1 else 0 } }

/-- R195, R102, R287 (log 9): INIT run alone on a healthy bus ends OK after seven transactions in this order: the device in
Standby with the LoRa and band bits set, the base registers written, the flags clear, every `x[i]` unset. -/
def Obligations.InitBringsTheDeviceUp : Prop :=
  ∀ (s : State) (b : Byte), s.cfg.wf = true → HostFresh s →
    b = 0x80 ||| (if s.cfg.lowFreqMode then 0x08 else 0x00) →
    ∃ t, execTimes 10 .init s = .next t ∧ t.host = (s.endedOk 0).host ∧ t.lockOwner = .none ∧ t.seq = .idle ∧
      t.modeShadow = 1 ∧ t.devReg s.cfg.aOpmode = b + 1 ∧
      t.devReg s.cfg.aFifoTxBase = s.cfg.txBaseInit ∧ t.devReg s.cfg.aFifoRxBase = s.cfg.rxBaseInit ∧
      t.flags = 0 ∧ t.irqPrev = false ∧ t.irqLatch = false ∧ t.devRst = false ∧ t.x = .unset ∧
      (t.trace.drop s.trace.length).map (fun r => (r.kind, r.addr, r.data)) =
        [(.wr, s.cfg.aOpmode, [b]), (.rd, s.cfg.aOpmode, [b]),
         (.wr, s.cfg.aFifoTxBase, [s.cfg.txBaseInit]), (.wr, s.cfg.aFifoRxBase, [s.cfg.rxBaseInit]),
         (.rd, s.cfg.aOpmode, [b]), (.wr, s.cfg.aOpmode, [b + 1]),
         (.rd, s.cfg.aOpmode, [b + 1])]

/-- R194, R272, R282, R215 (log 7): inside INIT, TRANSMIT and RECEIVE a mismatch starts the next attempt while attempts are left, the
shadow taking the mode read back; the last attempt's mismatch ends the command with ModeVerificationFailed, and `res`
holds the byte read back, for RECEIVE also 0 where the switch follows R215. -/
def Obligations.ModeRetryIsBounded : Prop :=
  ∀ (s : State) (len : BitVec 16) (i : Instr) (m : Main) (target : ModeCode) (res info : Word32),
    info = (s.devReg s.cfg.aOpmode).setWidth 32 →
    (i, m, target, res) ∈
      [(.init, .iStby, 1, info), (.transmit len, .tEns, 1, info), (.transmit len, .tMode, 3, info),
       (.transmit len, .tStby, 1, info), (.receive, .rEns, 1, if s.cfg.receiveErrorsClearRes then 0 else info),
       (.receive, .rMode, 5, if s.cfg.receiveErrorsClearRes then 0 else info),
       (.receive, .rStby, 1, if s.cfg.receiveErrorsClearRes then 0 else info)] →
    s.cfg.wf = true → HostAt s ⟨m, .mVf⟩ → s.devMode ≠ target →
      (s.pe.attempt.toNat < s.cfg.modeAttempts.toNat →
        exec i s = .next (({ s with modeShadow := s.devMode, seq := ⟨m, .mRd⟩ } : State).afterRead s.cfg.aOpmode)) ∧
      (s.cfg.modeAttempts.toNat ≤ s.pe.attempt.toNat →
        ∃ t, exec i s = .next t ∧ EndedByError t 2 res ∧ t.modeShadow = s.devMode ∧ sameDevice s t)

/-- R195, R211, R212, R215, R216, R191: the last micro-steps of INIT, TRANSMIT and RECEIVE, where the read-back shows
Standby: OK, with RECEIVE's payload and length handed to the host where its flags byte showed no CRC error. -/
def Obligations.CommandsEndInStandby : Prop :=
  ∀ (s : State) (len : BitVec 16), s.cfg.wf = true → s.devMode = 1 →
    (HostAt s ⟨.iStby, .mVf⟩ →
      exec .init s = .next (({ s with modeShadow := 1 } : State).afterRead s.cfg.aOpmode |>.endedOk 0)) ∧
    (HostAt s ⟨.tStby, .mVf⟩ →
      exec (.transmit len) s =
        .next (({ s with modeShadow := 1 } : State).afterRead s.cfg.aOpmode |>.endedOk (len.setWidth 32))) ∧
    (HostAt s ⟨.rStby, .mVf⟩ → s.pe.flags &&& 0x20 = 0 →
      exec .receive s =
        .next (({ s with
            modeShadow := 1,
            host := { s.host with
              rbuf := overlay s.host.rbuf (s.pe.buf.take s.pe.len.toNat), rlen := s.pe.len } } : State).afterRead
          s.cfg.aOpmode |>.endedOk (s.pe.len.setWidth 32)))

/-! ## Packet Engine -/

/-- R273, R211, R281 (b): a length of 0 or above MAX_PAYLOAD is rejected before anything else, even on a faulted bus. -/
def Obligations.InvalidPayloadRejectedFirst : Prop :=
  ∀ (s : State) (len : BitVec 16), s.host.pos = .e0 → len.toNat = 0 ∨ s.cfg.maxPayload < len.toNat →
    exec (.transmit len) s = .next { s with host := { s.host with busy := false, pos := .e0, status := 3, res := 0 } }

/-- R211, R212, R213, R218, R101, R284 (log 9, 10): TRANSMIT run alone on a healthy bus, whatever the shadow says, in POLL
mode, with the device raising TX-done before the first poll: it ends OK after exactly the transactions of R212 in their
order with their bytes, before them the three that force Standby exactly where the shadow is elsewhere. `m` is the
mode byte after that, `b` the TX base. The payload lies in the FIFO from the TX base on, the pointer ends behind it, and
no other cell and no other register has changed but the mode, the payload length and the TX-done flag. -/
def Obligations.TransmitDelivers : Prop :=
  ∀ (s : State) (len : BitVec 16) (m b : Byte), s.cfg.wf = true → HostFresh s → s.cfg.completionMode = .poll →
    s.host.hbuf.length = 255 → 1 ≤ len.toNat → len.toNat ≤ s.cfg.maxPayload →
    b = s.devReg s.cfg.aFifoTxBase → b.toNat < s.cfg.fifoSize →
    m = (if s.modeShadow = 1 then s.devReg s.cfg.aOpmode else s.devReg s.cfg.aOpmode &&& 0xF8 ||| 1) →
      ∃ t u, execTimes (if s.modeShadow = 1 then 11 else 14) (.transmit len) s = .next t ∧ t.devMode = 3 ∧
        t.modeShadow = 3 ∧ t.lockOwner = .host ∧ execTimes 5 (.transmit len) (devTxDone t) = .next u ∧
        u.host.status = 0 ∧ u.host.res = len.setWidth 32 ∧ u.host.busy = false ∧ u.lockOwner = .none ∧
        u.seq = .idle ∧ u.modeShadow = 1 ∧ u.devReg s.cfg.aOpmode = m &&& 0xF8 ||| 1 ∧
        u.flags = s.flags &&& ~~~0x08 ∧ u.devReg s.cfg.aPayloadLength = len.setWidth 8 ∧
        u.devReg s.cfg.aFifoAddrPtr = BitVec.ofNat 8 ((b.toNat + len.toNat) % s.cfg.fifoSize) ∧
        (∀ a, a ∉ [s.cfg.aOpmode, s.cfg.aIrqFlags, s.cfg.aPayloadLength, s.cfg.aFifoAddrPtr] →
          u.devReg a = s.devReg a) ∧
        (∀ k, k < len.toNat →
          (∀ j, k < j → j < len.toNat → (b.toNat + j) % s.cfg.fifoSize ≠ (b.toNat + k) % s.cfg.fifoSize) →
            s.host.hbuf[k]? = some (u.devFifo ((b.toNat + k) % s.cfg.fifoSize))) ∧
        (∀ c, (∀ k, k < len.toNat → (b.toNat + k) % s.cfg.fifoSize ≠ c) → u.devFifo c = s.devFifo c) ∧
        (u.trace.drop s.trace.length).map (fun r => (r.kind, r.addr, r.data)) =
          (if s.modeShadow = 1 then []
            else [(.rd, s.cfg.aOpmode, [s.devReg s.cfg.aOpmode]), (.wr, s.cfg.aOpmode, [m]), (.rd, s.cfg.aOpmode, [m])]) ++
          [(.rd, s.cfg.aFifoTxBase, [b]), (.wr, s.cfg.aFifoAddrPtr, [b]),
           (.wr, s.cfg.aFifo, s.host.hbuf.take len.toNat), (.wr, s.cfg.aPayloadLength, [len.setWidth 8]),
           (.wr, s.cfg.aIrqFlags, [0x08]), (.rd, s.cfg.aOpmode, [m]), (.wr, s.cfg.aOpmode, [m &&& 0xF8 ||| 3]),
           (.rd, s.cfg.aOpmode, [m &&& 0xF8 ||| 3]), (.rd, s.cfg.aIrqFlags, [s.flags ||| 0x08]),
           (.wr, s.cfg.aIrqFlags, [0x08]),
           (.rd, s.cfg.aOpmode, [m &&& 0xF8 ||| (if s.cfg.devTxAutoStandby then 1 else 3)]),
           (.wr, s.cfg.aOpmode, [m &&& 0xF8 ||| 1]), (.rd, s.cfg.aOpmode, [m &&& 0xF8 ||| 1])]

/-- R215, R216, R218, R285 (log 9, 10): RECEIVE run alone on a healthy bus, whatever the shadow says, in POLL mode, with a
packet arriving before the first poll and no stale CRC flag: Standby forced by three transactions exactly where the
shadow is elsewhere, then exactly the transactions of R216 in their order with their bytes (no FIFO read for an empty
packet), and the host gets exactly the packet, wherever in the FIFO it landed. `m` is the mode byte in Standby. -/
def Obligations.ReceiveDelivers : Prop :=
  ∀ (s : State) (a m : Byte) (bytes : List Byte), s.cfg.wf = true → HostFresh s → s.cfg.completionMode = .poll →
    s.host.rbuf.length = 255 → s.pe.buf.length = 255 → s.flags &&& 0x20 = 0 →
    a.toNat < s.cfg.fifoSize → bytes.length ≤ 255 → bytes.length ≤ s.cfg.fifoSize →
    m = (if s.modeShadow = 1 then s.devReg s.cfg.aOpmode else s.devReg s.cfg.aOpmode &&& 0xF8 ||| 1) →
      ∃ t u, execTimes (if s.modeShadow = 1 then 7 else 10) .receive s = .next t ∧ t.devMode = 5 ∧ t.modeShadow = 5 ∧
        (t.trace.drop s.trace.length).map (fun r => (r.kind, r.addr, r.data)) =
          (if s.modeShadow = 1 then []
            else [(.rd, s.cfg.aOpmode, [s.devReg s.cfg.aOpmode]), (.wr, s.cfg.aOpmode, [m]), (.rd, s.cfg.aOpmode, [m])]) ++
          [(.rd, s.cfg.aOpmode, [m]), (.wr, s.cfg.aOpmode, [m &&& 0xF8 ||| 5]), (.rd, s.cfg.aOpmode, [m &&& 0xF8 ||| 5])] ∧
        execTimes 10 .receive (devRxDone a bytes true t) = .next u ∧
        u.host.status = 0 ∧ u.host.res.toNat = bytes.length ∧ u.host.rlen.toNat = bytes.length ∧
        u.host.rbuf.take bytes.length = bytes ∧ u.host.busy = false ∧ u.lockOwner = .none ∧ u.modeShadow = 1 ∧
        u.devReg s.cfg.aOpmode = m &&& 0xF8 ||| 1 ∧ u.flags = s.flags &&& ~~~0x40 ∧
        u.devReg s.cfg.aFifoAddrPtr = BitVec.ofNat 8 ((a.toNat + bytes.length) % s.cfg.fifoSize) ∧
        (u.trace.drop t.trace.length).map (fun r => (r.kind, r.addr, r.data)) =
          [(.rd, s.cfg.aIrqFlags, [s.flags ||| 0x40]), (.rd, s.cfg.aRxNbBytes, [BitVec.ofNat 8 bytes.length]),
           (.rd, s.cfg.aFifoRxCurrent, [a]), (.wr, s.cfg.aFifoAddrPtr, [a])] ++
          (if bytes = [] then [] else [(.rd, s.cfg.aFifo, bytes)]) ++
          [(.wr, s.cfg.aIrqFlags, [0x40]), (.rd, s.cfg.aOpmode, [m &&& 0xF8 ||| 5]),
           (.wr, s.cfg.aOpmode, [m &&& 0xF8 ||| 1]), (.rd, s.cfg.aOpmode, [m &&& 0xF8 ||| 1])]

/-- R217, R276, R218 (log 9, 10): the same with a packet whose CRC failed: PayloadCrcError, nothing delivered, the FIFO,
the byte count and the current address not read, exactly the two flags cleared, by the byte 0x60, the device back in
Standby. -/
def Obligations.CrcErrorDiscardsThePacket : Prop :=
  ∀ (s : State) (a m : Byte) (bytes : List Byte), s.cfg.wf = true → HostFresh s → s.cfg.completionMode = .poll →
    bytes.length ≤ 255 → m = s.devReg s.cfg.aOpmode &&& 0xF8 →
      ∃ t u, execTimes (if s.modeShadow = 1 then 7 else 10) .receive s = .next t ∧
        execTimes 6 .receive (devRxDone a bytes false t) = .next u ∧
        EndedByError u 6 0 ∧ u.host.rlen = 0 ∧ u.host.rbuf = s.host.rbuf ∧ u.modeShadow = 1 ∧
        u.devReg s.cfg.aOpmode = m ||| 1 ∧ u.flags = s.flags &&& ~~~0x60 ∧
        (u.trace.drop t.trace.length).map (fun r => (r.kind, r.addr, r.data)) =
          [(.rd, s.cfg.aIrqFlags, [s.flags ||| 0x60]), (.wr, s.cfg.aIrqFlags, [0x60]), (.rd, s.cfg.aOpmode, [m ||| 5]),
           (.wr, s.cfg.aOpmode, [m ||| 1]), (.rd, s.cfg.aOpmode, [m ||| 1])]

/-- R274, R275, R213: in POLL mode a wait whose flag never shows ends after exactly RETRY_BOUND reads of the flags, not
earlier and not later, with the device and the shadow as they were. -/
def Obligations.PollTimesOutExactly : Prop :=
  ∀ (s : State) (len : BitVec 16) (i : Instr) (w : Main) (bit code : Byte),
    (i, w, bit, code) ∈ [(.transmit len, .tWait, 0x08, 4), (.receive, .rWait, 0x40, 5)] →
    s.cfg.wf = true → s.cfg.completionMode = .poll → HostAt s ⟨w, .none⟩ → s.pe.cnt = 0 → s.flags &&& bit = 0 →
      (∀ k, k < s.cfg.retryBound.toNat →
        ∃ t, execTimes k i s = .next t ∧ t.seq = ⟨w, .none⟩ ∧ t.lockOwner = .host ∧ t.host = s.host ∧
          t.trace = s.trace ++ List.replicate k (s.okRec .rd s.cfg.aIrqFlags [s.flags])) ∧
      ∃ t, execTimes s.cfg.retryBound.toNat i s = .next t ∧ EndedByError t code 0 ∧ sameDevice s t ∧
        t.modeShadow = s.modeShadow ∧
        t.trace = s.trace ++ List.replicate s.cfg.retryBound.toNat (s.okRec .rd s.cfg.aIrqFlags [s.flags])

/-- R214, R220, R275, R274, R281 (e), R212, R216, R280 (log 10, 11, 12, 13): the interrupt wait of TRANSMIT and of
RECEIVE. The latch is cleared at T_CLR, whose flags write is observed where it changes the register, and at R_MODE; the
verified transition to Transmit or Receive-Continuous arms the wait, with the deadline at now plus the timeout (in POLL
mode with the count at 0). In the wait a notification wins over a reached deadline and reads the flags once; without one
the deadline ends it with no transaction; with neither nothing happens. -/
def Obligations.InterruptWait : Prop :=
  ∀ (s : State) (len : BitVec 16), s.cfg.wf = true →
    (HostAt s ⟨.tClr, .none⟩ →
      ∃ t, exec (.transmit len) s = .next t ∧ t.irqLatch = false ∧ t.flags = s.flags &&& ~~~0x08 ∧
        t.irqPrev = (s.edgesAfter (s.flags &&& ~~~0x08)).2 ∧ sameDeviceBut s t s.cfg.aIrqFlags ∧
        t.seq = ⟨.tMode, .mRd⟩ ∧ t.pe = { s.pe with attempt := 0 } ∧
        t.trace = s.trace ++ [s.okRec .wr s.cfg.aIrqFlags [0x08]]) ∧
    (HostAt s ⟨.rMode, .none⟩ →
      exec .receive s = .next { s with
        irqLatch := false, seq := ⟨.rMode, .mRd⟩, pe := { s.pe with attempt := 0 } }) ∧
    (∀ (i : Instr) (m w : Main) (target : ModeCode),
      (i, m, w, target) ∈ [(.transmit len, .tMode, .tWait, 3), (.receive, .rMode, .rWait, 5)] →
      HostAt s ⟨m, .mVf⟩ → s.devMode = target →
        exec i s = .next { ({ s with modeShadow := target } : State).afterRead s.cfg.aOpmode with
          seq := ⟨w, .none⟩
          pe := match s.cfg.completionMode with
            | .irq => { s.pe with deadline := s.now + s.cfg.irqTimeoutMs }
            | .poll => { s.pe with cnt := 0 } }) ∧
    ∀ (i : Instr) (w next : Main) (bit code : Byte),
      (i, w, next, bit, code) ∈ [(.transmit len, .tWait, .tAck, 0x08, 4), (.receive, .rWait, .rCrc, 0x40, 5)] →
      s.cfg.completionMode = .irq → HostAt s ⟨w, .none⟩ →
        (s.irqLatch = true → s.flags &&& bit ≠ 0 →
          exec i s = .next { s.afterRead s.cfg.aIrqFlags with
            irqLatch := false, pe := { s.pe with flags := s.flags }, seq := ⟨next, .none⟩ }) ∧
        (s.irqLatch = true → s.flags &&& bit = 0 →
          exec i s = .next { s.afterRead s.cfg.aIrqFlags with
            irqLatch := false, pe := { s.pe with flags := s.flags } }) ∧
        (s.irqLatch = false → (s.now - s.pe.deadline).toNat < 2 ^ 31 →
          ∃ t, exec i s = .next t ∧ EndedByError t code 0 ∧ sameDevice s t ∧ t.trace = s.trace ∧
            t.modeShadow = s.modeShadow) ∧
        (s.irqLatch = false → 2 ^ 31 ≤ (s.now - s.pe.deadline).toNat → exec i s = .next s)

/-! ## Arbiter and scheduler -/

/-- R241: SCHSTART starts exactly the senders whose bit is set and that are off, in one step, in every state; `res` is
the set of senders that are not off. -/
def Obligations.SchstartStartsSenders : Prop :=
  ∀ (s : State) (mask : BitVec 5),
    ∃ t, exec (.schstart mask) s = .next t ∧
      (∀ i, (mask.getLsbD i.toNat = true ∧ (s.senders.get i).phase = .off →
          t.senders.get i = { s.senders.get i with phase := .sleeping, nextWake := s.now + s.cfg.offsetMs.get i }) ∧
        (¬ (mask.getLsbD i.toNat = true ∧ (s.senders.get i).phase = .off) →
          t.senders.get i = s.senders.get i) ∧
        (t.host.res.getLsbD i.toNat = true ↔ (t.senders.get i).phase ≠ .off)) ∧
      t.host.res.toNat < 32 ∧
      t = { s with
        senders := t.senders, host := { s.host with busy := false, pos := .e0, status := 0, res := t.host.res } }

/-- R243: WAKE: a sleeping sender wakes exactly when its tick is reached. -/
def Obligations.SenderWakes : Prop :=
  ∀ (i : Sid) (k : Bool) (s : State), (s.senders.get i).phase = .sleeping →
    ((s.now - (s.senders.get i).nextWake).toNat < 2 ^ 31 →
      senderStep i k s = .next { s with senders := s.senders.set i { s.senders.get i with
        phase := .waitlock,
        lockDeadline := match s.cfg.lockTimeoutMs with
          | none => (s.senders.get i).lockDeadline
          | some w => s.now + w } }) ∧
    (2 ^ 31 ≤ (s.now - (s.senders.get i).nextWake).toNat → senderStep i k s = .next s)

/-- R244, R245, R281 (g): a woken sender takes a free lock, test and set in one step, or skips its period at the deadline
of a finite lock timeout; where both are enabled the environment chooses; with neither it waits. -/
def Obligations.SenderAcquiresOrSkips : Prop :=
  ∀ (i : Sid) (k : Bool) (s : State), (s.senders.get i).phase = .waitlock →
    ∀ dl : Bool, (dl = true ↔ s.cfg.lockTimeoutMs ≠ none ∧ (s.now - (s.senders.get i).lockDeadline).toNat < 2 ^ 31) →
      (s.lockOwner = .none → (k = false ∨ dl = false) →
        senderStep i k s = .next { s with
          lockOwner := .s i, senders := s.senders.set i { s.senders.get i with phase := .copy } }) ∧
      (dl = true → (s.lockOwner ≠ .none ∨ k = true) →
        senderStep i k s = .next { s with senders := s.senders.set i { s.senders.get i with
          phase := .sleeping, status := 8, nextWake := (s.senders.get i).nextWake + s.cfg.periodMs.get i } }) ∧
      (s.lockOwner ≠ .none → dl = false → senderStep i k s = .next s)

/-- R246, R77, R75 (d): COPY takes the whole record in one step and loads the packet id and the record as the payload. -/
def Obligations.SenderCopiesItsRecord : Prop :=
  ∀ (i : Sid) (k : Bool) (s : State), (s.senders.get i).phase = .copy →
    senderStep i k s = .next { s with
      senders := s.senders.set i { s.senders.get i with phase := .sending, buf := s.snap.get i },
      pe := { s.pe with
        len := BitVec.ofNat 8 (1 + s.cfg.recLen.get i), buf := overlay s.pe.buf (s.cfg.pktId.get i :: s.snap.get i) },
      seq := ⟨.tEns, .none⟩ }

/-- R247, R212: a sender on a faulted bus fails before its first micro-step; otherwise each of its steps is the
micro-step of the transmit procedure that TRANSMIT's body takes, and its outcome is recorded in its own status only, the
lock kept until RELEASE. The frame: nothing of the host, the snapshot, `x` and the other senders; on a healthy bus no
device register but the one the micro-step writes and, after an access at the FIFO register, the pointer, and no FIFO
cell but those stored to. -/
def Obligations.SenderSends : Prop :=
  (∀ (s : State) (len : BitVec 16), s.host.pos = .e3 →
    exec (.transmit len) s =
      match peTransmit s with
      | .cont t => .next t
      | .done _ t => .next (t.endedOk (len.setWidth 32))
      | .raise e t => .next (t.endedErr e)
      | .fault f => .fault f
      | .refused r => .refused r) ∧
  ∀ (i : Sid) (k : Bool) (s : State), (s.senders.get i).phase = .sending →
    (s.seq = ⟨.tEns, .none⟩ ∧ s.busFault = true → senderStep i k s = .next (s.sendEnded i 1)) ∧
    (¬ (s.seq = ⟨.tEns, .none⟩ ∧ s.busFault = true) →
      senderStep i k s =
        match peTransmit s with
        | .cont t => .next t
        | .done _ t => .next (t.sendEnded i 0)
        | .raise e t => .next (t.sendEnded i e.code)
        | .fault f => .fault f
        | .refused r => .refused r) ∧
    ∀ t, senderStep i k s = .next t →
      t.host = s.host ∧ t.lockOwner = s.lockOwner ∧ t.snap = s.snap ∧ t.x = s.x ∧
      (∀ j, j ≠ i → t.senders.get j = s.senders.get j) ∧
      ((t.senders.get i = s.senders.get i) ∨
        (t.seq = .idle ∧ ∃ c : Byte, (c = 0 ∨ c = 1 ∨ c = 2 ∨ c = 4) ∧
          t.senders.get i = { s.senders.get i with phase := .release, status := c })) ∧
      (s.cfg.wf = true → s.busFault = false → s.busFails = false →
        (∀ a, storeAddr s.cfg (.transmit 0) s.seq ≠ some a →
          ¬ (0 < fifoMoves s (.transmit 0) s.seq ∧ a = s.cfg.aFifoAddrPtr) → t.devReg a = s.devReg a) ∧
        (∀ c, ¬ (storeAddr s.cfg (.transmit 0) s.seq = some s.cfg.aFifo ∧
            ∃ k, k < fifoMoves s (.transmit 0) s.seq ∧ s.fifoCell k = c) → t.devFifo c = s.devFifo c))

/-- R248, R249: RELEASE frees the lock and computes the next wake from the previous one, whatever the time. -/
def Obligations.SenderReleases : Prop :=
  ∀ (i : Sid) (k : Bool) (s : State), (s.senders.get i).phase = .release →
    senderStep i k s = .next { s with
      lockOwner := .none,
      senders := s.senders.set i { s.senders.get i with
        phase := .sleeping, nextWake := (s.senders.get i).nextWake + s.cfg.periodMs.get i } }

/-- R250: the time comparison is true from the tick on for the next `2^31 - 1` ticks and false for the others. -/
def Obligations.TimeReachedHalfRange : Prop :=
  ∀ (t : Word32) (k : Nat), k < 2 ^ 32 → (timeReached (t + BitVec.ofNat 32 k) t = true ↔ k < 2 ^ 31)

/-! ## The other agents -/

/-- R284, R280: DevTxDone, enabled exactly in Transmit; under DEV_TX_AUTO_STANDBY it also drops the mode to Standby. -/
def Obligations.TxDoneEvent : Prop :=
  ∀ (s : State), s.cfg.wf = true →
    (s.devMode ≠ 3 → devTxDone s = s) ∧
    (s.devMode = 3 →
      (devTxDone s).flags = s.flags ||| 0x08 ∧
      (devTxDone s).devReg s.cfg.aOpmode =
        (if s.cfg.devTxAutoStandby then (s.devReg s.cfg.aOpmode &&& 0xF8) ||| 1 else s.devReg s.cfg.aOpmode) ∧
      (∀ a, a ≠ s.cfg.aIrqFlags → a ≠ s.cfg.aOpmode → (devTxDone s).devReg a = s.devReg a) ∧
      (∀ k, (devTxDone s).devFifo k = s.devFifo k) ∧ (devTxDone s).modeShadow = s.modeShadow ∧
      (devTxDone s).trace = s.trace ∧ (devTxDone s).host = s.host ∧
      ((devTxDone s).irqLatch, (devTxDone s).irqPrev) = s.edgesAfter (s.flags ||| 0x08))

/-- R285, R280: DevRxDone, enabled exactly in the two receive modes: the packet in the FIFO from `a` on, its start and
length in the two registers, the flags set, the mode kept. -/
def Obligations.RxDoneEvent : Prop :=
  ∀ (s : State) (a : Byte) (bytes : List Byte) (ok : Bool), s.cfg.wf = true → bytes.length ≤ 255 →
    (s.devMode ≠ 5 → s.devMode ≠ 6 → devRxDone a bytes ok s = s) ∧
    (s.devMode = 5 ∨ s.devMode = 6 →
      (devRxDone a bytes ok s).flags = s.flags ||| (if ok then 0x40 else 0x60) ∧
      (devRxDone a bytes ok s).devReg s.cfg.aFifoRxCurrent = a ∧
      ((devRxDone a bytes ok s).devReg s.cfg.aRxNbBytes).toNat = bytes.length ∧
      (∀ b, b ≠ s.cfg.aIrqFlags → b ≠ s.cfg.aFifoRxCurrent → b ≠ s.cfg.aRxNbBytes →
        (devRxDone a bytes ok s).devReg b = s.devReg b) ∧
      (bytes.length ≤ s.cfg.fifoSize → ∀ k, (h : k < bytes.length) →
        (devRxDone a bytes ok s).devFifo ((a.toNat + k) % s.cfg.fifoSize) = bytes[k]) ∧
      (∀ c, (∀ k, k < bytes.length → (a.toNat + k) % s.cfg.fifoSize ≠ c) →
        (devRxDone a bytes ok s).devFifo c = s.devFifo c) ∧
      ((devRxDone a bytes ok s).irqLatch, (devRxDone a bytes ok s).irqPrev) =
        s.edgesAfter (s.flags ||| (if ok then 0x40 else 0x60)))

/-- R280, R279 (log 13): whatever gives the flags register a new value, the line is observed in the same step. Of a whole
step, whatever agent moves but the reset input: the latch becomes set only by a rising edge at a change of the register,
every such edge sets it (but at T_CLR, which clears it in the same step, R212), the level is remembered at every change,
and without a change it is kept, but by INIT's pulse, which observes the flags at 0 (R287). -/
def Obligations.InterruptEdges : Prop :=
  (∀ (s : State) (v : Byte),
    (s.setFlags v).flags = v ∧ ((s.setFlags v).irqLatch, (s.setFlags v).irqPrev) = s.edgesAfter v ∧
      (v = s.flags → s.setFlags v = s)) ∧
  ∀ (s t : State) (e : Event) (rest : List Event), s.cfg.wf = true → NextMove s e rest → isRst e = false →
    step s = .next t →
      (t.irqLatch = true → s.irqLatch = true ∨ (t.flags ≠ s.flags ∧ t.flags &&& 0x48 ≠ 0 ∧ s.irqPrev = false)) ∧
      (t.flags ≠ s.flags → t.flags &&& 0x48 ≠ 0 → s.irqPrev = false → s.seq ≠ ⟨.tClr, .none⟩ → t.irqLatch = true) ∧
      (t.flags ≠ s.flags → t.irqPrev = (t.flags &&& 0x48 != 0)) ∧
      (t.flags = s.flags → t.irqPrev = s.irqPrev ∨ (t.flags = 0 ∧ t.irqPrev = false))

/-- R76, R289: SnapWrite replaces one whole record in one step and touches nothing else. -/
def Obligations.SnapWriteReplacesOneRecord : Prop :=
  ∀ (s : State) (i : Sid) (bytes : List Byte) (rest : List Event), NextMove s (.snapWrite i bytes) rest →
    bytes.length = s.cfg.recLen.get i →
      step s = .next { s with env := rest, snap := s.snap.set i bytes }

/-- R290: the clock's step. -/
def Obligations.ClockTicks : Prop :=
  ∀ (s : State) (rest : List Event), NextMove s .tick rest →
    step s = .next { s with env := rest, now := BitVec.ofNat 32 ((s.now.toNat + 1) % 2 ^ 32) }

/-- R310, R54, R312: the reset input, at any step boundary: the block at its reset values, the device untouched. -/
def Obligations.BlockResetRestoresTheBlock : Prop :=
  ∀ (s : State) (rest : List Event), NextMove s .rst rest →
    ∃ t, step s = .next t ∧ t.dev = s.dev ∧ t.cfg = s.cfg ∧ t.x = .unset ∧ t.modeShadow = 0 ∧ t.host.busy = false ∧
      t.host.cmd = 0 ∧ t.host.res = 0 ∧ t.host.rlen = 0 ∧ t.host.status = 0 ∧ t.seq = .idle ∧ t.pe.cnt = 0 ∧
      t.pe.deadline = 0 ∧ t.pe.attempt = 0 ∧ t.pe.flags = 0 ∧ t.pe.len = 0 ∧ t.pe.tmp = 0 ∧ t.busFault = false ∧
      t.irqLatch = false ∧ t.irqPrev = false ∧ t.lockOwner = .none ∧ t.sel = false ∧ t.devRst = false ∧ t.now = 0 ∧
      t.trace = [] ∧
      ∀ i, (t.senders.get i).phase = .off ∧ (t.senders.get i).nextWake = 0 ∧ (t.senders.get i).lockDeadline = 0 ∧
        (t.senders.get i).status = 0 ∧ t.snap.get i = List.replicate (s.cfg.recLen.get i) 0

/-! ## Frames -/

/-- R66 to R71, R82: a micro-step of a host command on a healthy bus leaves every device register as it was but the one
its rule writes and, after an access at the FIFO register, the pointer; and every FIFO cell but those a FIFO write
stores to. Not of INIT's reset pulse (R287). -/
def Obligations.FrameOfTheDevice : Prop :=
  ∀ (i : Instr) (s t : State) (q : Seq), s.cfg.wf = true → usesEnvelope i = true →
    (i, q) ≠ (.init, ⟨.iRst, .none⟩) → HostAt s q → exec i s = .next t →
      (∀ a, storeAddr s.cfg i q ≠ some a → ¬ (0 < fifoMoves s i q ∧ a = s.cfg.aFifoAddrPtr) →
        t.devReg a = s.devReg a) ∧
      (∀ c, ¬ (storeAddr s.cfg i q = some s.cfg.aFifo ∧ ∃ k, k < fifoMoves s i q ∧ s.fifoCell k = c) →
        t.devFifo c = s.devFifo c)

/-- R21 to R33, R137 to R217, R241: what a host command leaves alone in the block. In its body: the parameters, the
senders, the snapshot, the clock, the accepted word and `hbuf` always; `x` unless it is a setter or INIT; the shadow
unless it changes the mode; `rbuf` and `rlen` unless it delivers bytes; the fault bit on a healthy bus. Before it holds
the lock, and for ISMODE and SCHSTART: the whole device, the log, the shadow, `x`, the fault bit, the interrupt latch,
the clock and the snapshot. -/
def Obligations.FrameOfTheBlock : Prop :=
  (∀ (i : Instr) (s t : State), usesEnvelope i = true → s.host.pos = .e3 → exec i s = .next t →
    t.cfg = s.cfg ∧ t.senders = s.senders ∧ t.snap = s.snap ∧ t.now = s.now ∧ t.env = s.env ∧ t.busPort = s.busPort ∧
      t.host.cmd = s.host.cmd ∧ t.host.hbuf = s.host.hbuf ∧
      (writesTuple i = false → t.x = s.x) ∧
      ((∀ m, i ≠ .setmode m) → i ≠ .init → (∀ n, i ≠ .transmit n) → i ≠ .receive → t.modeShadow = s.modeShadow) ∧
      ((∀ a n, i ≠ .rdburst a n) → i ≠ .receive → t.host.rbuf = s.host.rbuf ∧ t.host.rlen = s.host.rlen) ∧
      (s.busFails = false → t.busFault = s.busFault)) ∧
  ∀ (i : Instr) (s t : State),
    (usesEnvelope i = true ∧ s.host.pos ≠ .e3) ∨ (∃ m, i = .ismode m) ∨ (∃ m, i = .schstart m) →
    exec i s = .next t →
      sameDevice s t ∧ t.trace = s.trace ∧ t.modeShadow = s.modeShadow ∧ t.x = s.x ∧ t.busFault = s.busFault ∧
        t.irqLatch = s.irqLatch ∧ t.irqPrev = s.irqPrev ∧ t.now = s.now ∧ t.snap = s.snap ∧ t.cfg = s.cfg

/-- R20 to R35, R284 to R292, R241, R85: every element has its writers. In one step of the machine: the configuration
never changes; only the tick moves `now`; only producer i writes record i; only the host writes `hbuf`, its bytes spliced
in on a free port and nothing on a busy one; a command is accepted only by a free port and its word kept until the next
is; only the executor writes the rest of the port; only a setter or INIT writes `x`; only the executor and the senders
touch the shadow, the lock, the sequencer and its registers, the log, the fault bit and the select line; of the host
commands only SCHSTART writes sender registers, and a sender writes its own; the reset output is not raised across steps
(log 25); the device and the interrupt latch are moved only by the bus masters and the device's own events. Apart from
the reset input. -/
def Obligations.EveryElementHasItsWriters : Prop :=
  ∀ (s t : State) (e : Event) (rest : List Event), NextMove s e rest → step s = .next t →
    t.cfg = s.cfg ∧ t.env = rest ∧
    (isRst e = false →
      (e ≠ .tick → t.now = s.now) ∧
      (∀ i, (∀ b, e ≠ .snapWrite i b) → t.snap.get i = s.snap.get i) ∧
      ((∀ k b, e ≠ .hbufWrite k b) → t.host.hbuf = s.host.hbuf) ∧
      (∀ k b, e = .hbufWrite k b →
        (s.host.busy = true → t.host = s.host) ∧
        (s.host.busy = false → s.host.hbuf.length = 255 → k.toNat + b.length ≤ 255 →
          ∀ n, t.host.hbuf[n]? =
            if k.toNat ≤ n ∧ n < k.toNat + b.length then b[n - k.toNat]? else s.host.hbuf[n]?)) ∧
      (∀ w, e = .present w →
        t.host = if s.host.busy then s.host else { s.host with busy := true, cmd := w, pos := .e0 }) ∧
      ((∀ w, e ≠ .present w) → t.host.cmd = s.host.cmd) ∧
      ((∀ f, e ≠ .exec f) → (∀ w, e ≠ .present w) → t.host.busy = s.host.busy ∧ t.host.pos = s.host.pos) ∧
      ((∀ f, e ≠ .exec f) → t.host.status = s.host.status ∧ t.host.res = s.host.res ∧ t.host.rbuf = s.host.rbuf ∧
        t.host.rlen = s.host.rlen) ∧
      ((∀ f, e ≠ .exec f) ∨ s.cmdIs writesTuple = false → t.x = s.x) ∧
      ((∀ f, e ≠ .exec f) → (∀ i k f, e ≠ .sender i k f) →
        t.modeShadow = s.modeShadow ∧ t.lockOwner = s.lockOwner ∧ t.seq = s.seq ∧ t.pe = s.pe ∧ t.trace = s.trace ∧
          t.busFault = s.busFault ∧ t.senders = s.senders ∧ t.sel = s.sel ∧ t.devRst = s.devRst) ∧
      (∀ f, e = .exec f → s.cmdIs isSchstart = false → t.senders = s.senders) ∧
      (∀ i k f, e = .sender i k f → t.host = s.host ∧ ∀ j, j ≠ i → t.senders.get j = s.senders.get j) ∧
      (t.devRst = s.devRst ∨ t.devRst = false) ∧
      (movesDevice s.cfg e = false → t.dev = s.dev ∧ t.irqLatch = s.irqLatch ∧ t.irqPrev = s.irqPrev))

/-- R136, R27, R282, R271, R247: a micro-step has a transaction exactly where, with the draw the other way, it is not one
that answers a next state with the log as it was. One without a transaction is not touched by the draw. One with a
transaction that fails sets the fault bit, appends one record marked faulted and tagged with the lock's holder, leaves
the shadow and `x` as they were, and ends the operation in the same step: a host command with BusFault, `res = 0` and the
lock free; a sender's SEND with BusFault in its own status, the lock kept until RELEASE. On the bus port (log 8) it
closes the bracket with nothing received. -/
def Obligations.FailedTransactionEndsTheCommand : Prop :=
  (∀ (i : Instr) (s t : State), usesEnvelope i = true → s.host.pos = .e3 → s.lockOwner = .host → s.busFault = false →
    s.busFails = true → exec i s = .next t →
      (∀ u, exec i { s with busFails := false } = .next u → u.trace = s.trace →
        t = { u with busFails := true } ∧ t.busFault = false) ∧
      ((∀ u, exec i { s with busFails := false } = .next u → u.trace ≠ s.trace) →
        EndedByError t 1 0 ∧ FailureRecorded s t)) ∧
  (∀ (i : Sid) (k : Bool) (s t : State), (s.senders.get i).phase = .sending → s.lockOwner = .s i → s.busFault = false →
    s.busFails = true → senderStep i k s = .next t →
      (∀ u, senderStep i k { s with busFails := false } = .next u → u.trace = s.trace →
        t = { u with busFails := true } ∧ t.busFault = false) ∧
      ((∀ u, senderStep i k { s with busFails := false } = .next u → u.trace ≠ s.trace) →
        FailureRecorded s t ∧ t.seq = .idle ∧ t.lockOwner = .s i ∧ t.host = s.host ∧
          t.senders = s.senders.set i { s.senders.get i with status := 1, phase := .release })) ∧
  ∀ (a : Addr) (s : State), s.lockOwner ≠ .none → s.busFault = false → s.busFails = true →
    (s.busPort.want ≠ 0 → ∃ t, exec (.busRd a) s = .next t ∧ FailureRecorded s t ∧ t.busPort = .closed []) ∧
    (s.busPort.out ≠ [] → ∃ t, exec (.busWr a) s = .next t ∧ FailureRecorded s t ∧ t.busPort = .closed [])

/-- R27, R271, R325: a bus fault is final: while the fault bit is set, no move but the reset input clears it and no move
makes a transaction; a sender's next cycle fails with BusFault (its first micro-step is not run). -/
def Obligations.BusFaultIsFinal : Prop :=
  ∀ (s t : State) (e : Event) (rest : List Event), NextMove s e rest → isRst e = false → s.busFault = true →
    step s = .next t →
      t.busFault = true ∧ t.trace = s.trace ∧
        (∀ i k f, e = .sender i k f → (s.senders.get i).phase = .sending → s.seq = ⟨.tEns, .none⟩ →
          (t.senders.get i).status = 1 ∧ (t.senders.get i).phase = .release ∧ t.dev = s.dev)

/-- R53, R82, R252: the log only grows, by at most one record a step, which is tagged with the holder of the lock, and
nothing is recorded while nobody holds it. -/
def Obligations.TraceGrowsByTheLockHolder : Prop :=
  ∀ (s t : State) (e : Event) (rest : List Event), NextMove s e rest → isRst e = false → step s = .next t →
    t.trace = s.trace ∨
      (s.lockOwner ≠ .none ∧ ∃ r : TraceRec, t.trace = s.trace ++ [r] ∧ r.owner = s.lockOwner)

/-! ## Invariants -/

/-- R54, R60, R252: the state after reset is safe. -/
def Obligations.ResetIsSafe : Prop := Safe State.reset

/-- R252, R24, R29, R60, R242: every step of the machine, whatever agent moves, keeps a safe state safe: memories in
canonical form, buffers of their lengths, the lock, the phases, the envelope and the sequencer in agreement. -/
def Obligations.StepKeepsSafe : Prop := ∀ s t : State, Safe s → step s = .next t → Safe t

/-- R221, R252, R282 (log 16): from a safe state, with the default FIFO size, the machine goes on, whatever agent moves:
the only stop is the burst to which the spec gives no meaning. -/
def Obligations.SafeStatesGoOn : Prop :=
  ∀ s : State, Safe s → s.cfg.fifoSize = 256 →
    (∃ t, step s = .next t) ∨
      (step s = .refused .burstOffFifo ∧
        s.cmdIs (fun i => match i with
          | .rdburst a n | .wrburst a n => a != s.cfg.aFifo && decide (2 ≤ n.toNat)
          | _ => false) = true)

/-- R293 (e), R293 (f), R213, R194: every step keeps the two bounded counters within their bounds. -/
def Obligations.StepKeepsBounds : Prop :=
  ∀ s t : State, s.cfg.wf = true → PollBounded s → AttemptsBounded s → step s = .next t →
    PollBounded t ∧ AttemptsBounded t
end

