-- ==== Sys2Proof/Laws/Memory.lean ====
section
/-! SUPPORT. The laws of memory: a read after a write, the canonical form kept by every operation, the FIFO's reads and writes. -/

namespace Sys2Proof.Machine

/-! ## Reads -/

theorem Memory.read_nil (a : Nat) : Memory.read [] a = Memory.unlisted := rfl

theorem Memory.read_cons (c : Host.Cell) (m : Memory) (a : Nat) :
    Memory.read (c :: m) a = if c.1 = a then c.2 else m.read a := rfl

theorem Memory.read_of_not_mem {m : Memory} {a : Nat} (h : ∀ c ∈ m, c.1 ≠ a) : m.read a = Memory.unlisted := by
  induction m with
  | nil => rfl
  | cons c m ih =>
    rw [Memory.read_cons, if_neg (h c (by simp))]
    exact ih (fun d hd => h d (by simp [hd]))

theorem Memory.read_insert (m : Memory) (a : Nat) (v : Byte) (b : Nat) (h : ∀ c ∈ m, c.1 ≠ a) :
    (m.insert a v).read b = if a = b then v else m.read b := by
  induction m with
  | nil => simp [Memory.insert, Memory.read]
  | cons c m ih =>
    have hc : c.1 ≠ a := h c (by simp)
    have ih := ih (fun d hd => h d (by simp [hd]))
    unfold Memory.insert
    split
    · rfl
    · rw [Memory.read_cons, ih, Memory.read_cons]
      by_cases hb : a = b
      · subst hb; simp [hc]
      · simp [hb]

theorem Memory.read_remove (m : Memory) (a b : Nat) :
    (m.remove a).read b = if a = b then Memory.unlisted else m.read b := by
  induction m with
  | nil => simp [Memory.remove, Memory.read]
  | cons c m ih =>
    simp only [Memory.remove, List.filter_cons, bne_iff_ne, ne_eq] at ih ⊢
    by_cases hc : c.1 = a
    · simp only [hc, not_true, if_false, ih, Memory.read_cons]
      split <;> simp_all
    · simp only [hc, not_false_iff, if_true, Memory.read_cons, ih]
      by_cases hb : a = b
      · subst hb; simp [hc]
      · simp [hb]

theorem Memory.not_mem_remove (m : Memory) (a : Nat) : ∀ c ∈ m.remove a, c.1 ≠ a := by
  simp only [Memory.remove, List.mem_filter, bne_iff_ne]
  exact fun c hc => hc.2

/-- A read after a write, at any two addresses, of any memory. -/
theorem Memory.read_write (m : Memory) (a : Nat) (v : Byte) (b : Nat) :
    (m.write a v).read b = if a = b then v else m.read b := by
  unfold Memory.write
  split
  · next h => rw [Memory.read_remove, h]
  · rw [Memory.read_insert _ _ _ _ (m.not_mem_remove a), Memory.read_remove]
    split <;> simp_all

@[simp] theorem Memory.read_write_same (m : Memory) (a : Nat) (v : Byte) : (m.write a v).read a = v := by
  simp [Memory.read_write]

theorem Memory.read_write_other (m : Memory) {a b : Nat} (v : Byte) (h : a ≠ b) : (m.write a v).read b = m.read b := by
  simp [Memory.read_write, h]

theorem Memory.read_fillFrom (f : Nat → Byte) (n : Nat) :
    ∀ a b, (Memory.fillFrom f a n).read b = if a ≤ b ∧ b < a + n then f b else Memory.unlisted := by
  induction n with
  | zero => intro a b; simp [Memory.fillFrom, Memory.read]
  | succ n ih =>
    intro a b
    unfold Memory.fillFrom
    by_cases hb : a = b
    · subst hb
      split
      · next h => rw [ih]; simp [h]
      · simp [Memory.read_cons]
    · split
      · rw [ih]; congr 1; simp only [eq_iff_iff]; omega
      · rw [Memory.read_cons, if_neg hb, ih]; congr 1; simp only [eq_iff_iff]; omega

/-- A filled memory holds what it was filled with. -/
theorem Memory.read_fill (f : Nat → Byte) (n b : Nat) :
    (Memory.fill f n).read b = if b < n then f b else Memory.unlisted := by
  simp [Memory.fill, Memory.read_fillFrom]

/-! ## The canonical form -/

theorem Memory.wf_iff (m : Memory) :
    m.wf = true ↔ m.Pairwise (fun c d => c.1 < d.1) ∧ ∀ c ∈ m, c.2 ≠ Memory.unlisted := by
  simp [Memory.wf]

theorem Memory.inside_iff (m : Memory) (n : Nat) : m.inside n = true ↔ ∀ c ∈ m, c.1 < n := by
  simp [Memory.inside]

theorem Memory.mem_insert (m : Memory) (a : Nat) (v : Byte) (c : Host.Cell) :
    c ∈ m.insert a v ↔ c = (a, v) ∨ c ∈ m := by
  induction m with
  | nil => simp [Memory.insert]
  | cons d m ih =>
    unfold Memory.insert
    split
    · simp
    · simp only [List.mem_cons, ih]; tauto

theorem Memory.wf_remove {m : Memory} (a : Nat) (h : m.wf = true) : (m.remove a).wf = true := by
  rw [Memory.wf_iff] at h ⊢
  exact ⟨h.1.filter _, fun c hc => h.2 c (List.mem_filter.1 hc).1⟩

theorem Memory.wf_insert {m : Memory} {a : Nat} {v : Byte} (h : m.wf = true) (hv : v ≠ Memory.unlisted)
    (ha : ∀ c ∈ m, c.1 ≠ a) : (m.insert a v).wf = true := by
  rw [Memory.wf_iff] at h ⊢
  refine ⟨?_, ?_⟩
  · obtain ⟨hp, -⟩ := h
    induction m with
    | nil => simp [Memory.insert]
    | cons c m ih =>
      have hc : c.1 ≠ a := ha c (by simp)
      rw [List.pairwise_cons] at hp
      unfold Memory.insert
      split
      · next hlt =>
        refine List.pairwise_cons.2 ⟨?_, List.pairwise_cons.2 hp⟩
        intro d hd
        rcases List.mem_cons.1 hd with rfl | hd
        · exact hlt
        · exact hlt.trans (hp.1 d hd)
      · next hlt =>
        refine List.pairwise_cons.2 ⟨?_, ih (fun d hd => ha d (by simp [hd])) hp.2⟩
        intro d hd
        rcases (Memory.mem_insert m a v d).1 hd with rfl | hd
        · simp only; omega
        · exact hp.1 d hd
  · intro c hc
    rcases (Memory.mem_insert m a v c).1 hc with rfl | hc
    · exact hv
    · exact h.2 c hc

/-- A write keeps the canonical form. -/
theorem Memory.wf_write {m : Memory} (a : Nat) (v : Byte) (h : m.wf = true) : (m.write a v).wf = true := by
  unfold Memory.write
  split
  · exact Memory.wf_remove a h
  · next hv => exact Memory.wf_insert (Memory.wf_remove a h) hv (m.not_mem_remove a)

/-- A write inside the space stays inside. -/
theorem Memory.inside_write {m : Memory} {n a : Nat} (v : Byte) (h : m.inside n = true) (ha : a < n) :
    (m.write a v).inside n = true := by
  rw [Memory.inside_iff] at h ⊢
  have hr : ∀ c ∈ m.remove a, c.1 < n := fun c hc => h c (List.mem_filter.1 hc).1
  unfold Memory.write
  split
  · exact hr
  · intro c hc
    rcases (Memory.mem_insert _ a v c).1 hc with rfl | hc
    · exact ha
    · exact hr c hc

theorem Memory.mem_fillFrom (f : Nat → Byte) (n : Nat) :
    ∀ a, ∀ c ∈ Memory.fillFrom f a n, a ≤ c.1 ∧ c.1 < a + n ∧ c.2 ≠ Memory.unlisted := by
  induction n with
  | zero => simp [Memory.fillFrom]
  | succ n ih =>
    intro a c hc
    unfold Memory.fillFrom at hc
    split at hc
    · have := ih _ c hc; exact ⟨by omega, by omega, this.2.2⟩
    · next hv =>
      rcases List.mem_cons.1 hc with rfl | hc
      · exact ⟨le_refl _, by simp only; omega, hv⟩
      · have := ih _ c hc; exact ⟨by omega, by omega, this.2.2⟩

theorem Memory.wf_fillFrom (f : Nat → Byte) (n : Nat) : ∀ a, (Memory.fillFrom f a n).wf = true := by
  induction n with
  | zero => intro a; rfl
  | succ n ih =>
    intro a
    unfold Memory.fillFrom
    split
    · exact ih _
    · next hv =>
      have h := ih (a + 1)
      rw [Memory.wf_iff] at h ⊢
      refine ⟨List.pairwise_cons.2 ⟨fun d hd => ?_, h.1⟩, fun c hc => ?_⟩
      · have := Memory.mem_fillFrom f n (a + 1) d hd; simp only; omega
      · rcases List.mem_cons.1 hc with rfl | hc
        · exact hv
        · exact h.2 c hc

/-- A filled memory is in canonical form. -/
theorem Memory.wf_fill (f : Nat → Byte) (n : Nat) : (Memory.fill f n).wf = true := Memory.wf_fillFrom f n 0

/-- A filled memory lies inside its space. -/
theorem Memory.inside_fill (f : Nat → Byte) (n : Nat) : (Memory.fill f n).inside n = true := by
  rw [Memory.inside_iff]
  intro c hc
  have := Memory.mem_fillFrom f n 0 c hc
  omega

/-! ## The FIFO -/

@[simp] theorem fifoRead_length (size : Nat) (m : Memory) (n : Nat) : ∀ p, (fifoRead size m p n).length = n := by
  induction n with
  | zero => intro p; rfl
  | succ n ih => intro p; simp [fifoRead, ih]

theorem fifoNext_lt {size : Nat} (p : Nat) (h : 0 < size) : fifoNext size p < size := Nat.mod_lt _ h

theorem fifoWrite_wf (size : Nat) (bs : List Byte) :
    ∀ (m : Memory) (p : Nat), m.wf = true → (fifoWrite size m p bs).wf = true := by
  induction bs with
  | nil => intro m p h; exact h
  | cons b bs ih => intro m p h; exact ih _ _ (Memory.wf_write p b h)

theorem fifoWrite_inside {size : Nat} (hs : 0 < size) (bs : List Byte) :
    ∀ (m : Memory) (p : Nat), p < size → m.inside size = true → (fifoWrite size m p bs).inside size = true := by
  induction bs with
  | nil => intro m p _ h; exact h
  | cons b bs ih => intro m p hp h; exact ih _ _ (fifoNext_lt p hs) (Memory.inside_write b h hp)

/-- The pointer after `n` accesses is the pointer moved on by `n`, modulo the size (20_memory.md R67, R69). -/
theorem fifoPtrAfter_eq {size : Nat} (n : Nat) : ∀ {p : Nat}, p < size → fifoPtrAfter size p n = (p + n) % size := by
  induction n with
  | zero => intro p h; simp [fifoPtrAfter, Nat.mod_eq_of_lt h]
  | succ n ih =>
    intro p h
    have h0 : 0 < size := by omega
    rw [fifoPtrAfter, ih (fifoNext_lt p h0), fifoNext, Nat.mod_add_mod]
    congr 1; omega

/-- Byte `k` of a FIFO read comes from the cell `k` places after the pointer (R67). -/
theorem fifoRead_getElem? {size : Nat} (m : Memory) (n : Nat) :
    ∀ {p k : Nat}, p < size → k < n → (fifoRead size m p n)[k]? = some (m.read ((p + k) % size)) := by
  induction n with
  | zero => intro p k _ hk; omega
  | succ n ih =>
    intro p k hp hk
    have h0 : 0 < size := by omega
    cases k with
    | zero => simp [fifoRead, Nat.mod_eq_of_lt hp]
    | succ k =>
      simp only [fifoRead, List.getElem?_cons_succ]
      rw [ih (fifoNext_lt p h0) (by omega)]
      simp only [fifoNext, Nat.mod_add_mod]
      congr 3; omega

/-- A FIFO write leaves every cell it does not store to alone (R68). -/
theorem fifoWrite_other {size : Nat} (bs : List Byte) :
    ∀ (m : Memory) {p k : Nat}, p < size → (∀ j < bs.length, (p + j) % size ≠ k) →
      (fifoWrite size m p bs).read k = m.read k := by
  induction bs with
  | nil => intro m p k _ _; rfl
  | cons b bs ih =>
    intro m p k hp h
    have h0 : 0 < size := by omega
    have hpk : p ≠ k := by simpa [Nat.mod_eq_of_lt hp] using h 0 (by simp)
    simp only [fifoWrite]
    rw [ih _ (fifoNext_lt p h0), Memory.read_write_other _ _ hpk]
    intro j hj
    have := h (j + 1) (by simp; omega)
    simp only [fifoNext, Nat.mod_add_mod]
    convert this using 2; omega

/-- A FIFO write of at most `FIFO_SIZE` bytes stores byte `j` in the cell `j` places after the pointer (R68). -/
theorem fifoWrite_same {size : Nat} (bs : List Byte) :
    ∀ (m : Memory) {p j : Nat}, p < size → bs.length ≤ size → (hj : j < bs.length) →
      (fifoWrite size m p bs).read ((p + j) % size) = bs[j] := by
  induction bs with
  | nil => intro m p j _ _ hj; simp at hj
  | cons b bs ih =>
    intro m p j hp hl hj
    have h0 : 0 < size := by omega
    simp only [List.length_cons] at hl hj
    simp only [fifoWrite]
    cases j with
    | zero =>
      simp only [Nat.add_zero, Nat.mod_eq_of_lt hp, List.getElem_cons_zero]
      rw [fifoWrite_other _ _ (fifoNext_lt p h0), Memory.read_write_same]
      intro i hi hc
      simp only [fifoNext, Nat.mod_add_mod] at hc
      rcases Nat.lt_or_ge (p + 1 + i) size with h | h
      · rw [Nat.mod_eq_of_lt h] at hc; omega
      · rw [Nat.mod_eq_sub_mod h, Nat.mod_eq_of_lt (by omega)] at hc; omega
    | succ j =>
      have := ih (m.write p b) (fifoNext_lt p h0) (by omega) (j := j) (by omega)
      simp only [fifoNext, Nat.mod_add_mod] at this
      simp only [List.getElem_cons_succ]
      rw [← this]
      congr 2; omega

end Sys2Proof.Machine
end

