-- ==== Sys2Proof/Laws/State.lean ====
section
/-! SUPPORT. What each named update of State does to each field: two theorems an update, `_frame` (the fields it leaves) and `_vals` (the fields it writes), both rewrite rules, so that no later proof unfolds a record update. -/

namespace Sys2Proof.Machine

@[simp] theorem State.putReg_frame (s : State) (a : Addr) (v : Byte) :
    (s.putReg a v).cfg = s.cfg ∧ (s.putReg a v).x = s.x ∧ (s.putReg a v).modeShadow = s.modeShadow ∧
    (s.putReg a v).host = s.host ∧ (s.putReg a v).seq = s.seq ∧ (s.putReg a v).pe = s.pe ∧
    (s.putReg a v).busFault = s.busFault ∧ (s.putReg a v).irqLatch = s.irqLatch ∧
    (s.putReg a v).irqPrev = s.irqPrev ∧ (s.putReg a v).lockOwner = s.lockOwner ∧ (s.putReg a v).sel = s.sel ∧
    (s.putReg a v).devRst = s.devRst ∧ (s.putReg a v).now = s.now ∧ (s.putReg a v).senders = s.senders ∧
    (s.putReg a v).snap = s.snap ∧ (s.putReg a v).trace = s.trace ∧ (s.putReg a v).env = s.env ∧
    (s.putReg a v).busFails = s.busFails ∧ (s.putReg a v).drawn = s.drawn ∧ (s.putReg a v).busPort = s.busPort := by
  refine ⟨?_, ?_, ?_, ?_, ?_, ?_, ?_, ?_, ?_, ?_, ?_, ?_, ?_, ?_, ?_, ?_, ?_, ?_, ?_, ?_⟩ <;> rfl

@[simp] theorem State.putReg_vals (s : State) (a : Addr) (v : Byte) :
    (s.putReg a v).dev.reg = s.dev.reg.write a.toNat v ∧ (s.putReg a v).dev.fifo = s.dev.fifo := ⟨rfl, rfl⟩

@[simp] theorem State.setFifoPtr_frame (s : State) (p : Nat) :
    (s.setFifoPtr p).cfg = s.cfg ∧ (s.setFifoPtr p).x = s.x ∧ (s.setFifoPtr p).modeShadow = s.modeShadow ∧
    (s.setFifoPtr p).host = s.host ∧ (s.setFifoPtr p).seq = s.seq ∧ (s.setFifoPtr p).pe = s.pe ∧
    (s.setFifoPtr p).busFault = s.busFault ∧ (s.setFifoPtr p).irqLatch = s.irqLatch ∧
    (s.setFifoPtr p).irqPrev = s.irqPrev ∧ (s.setFifoPtr p).lockOwner = s.lockOwner ∧
    (s.setFifoPtr p).sel = s.sel ∧ (s.setFifoPtr p).devRst = s.devRst ∧ (s.setFifoPtr p).now = s.now ∧
    (s.setFifoPtr p).senders = s.senders ∧ (s.setFifoPtr p).snap = s.snap ∧ (s.setFifoPtr p).trace = s.trace ∧
    (s.setFifoPtr p).env = s.env ∧ (s.setFifoPtr p).busFails = s.busFails ∧ (s.setFifoPtr p).drawn = s.drawn ∧
    (s.setFifoPtr p).busPort = s.busPort := by
  refine ⟨?_, ?_, ?_, ?_, ?_, ?_, ?_, ?_, ?_, ?_, ?_, ?_, ?_, ?_, ?_, ?_, ?_, ?_, ?_, ?_⟩ <;> rfl

@[simp] theorem State.setFifoPtr_vals (s : State) (p : Nat) :
    (s.setFifoPtr p).dev.fifo = s.dev.fifo := rfl

@[simp] theorem State.observeIrq_frame (s : State) :
    (s.observeIrq).cfg = s.cfg ∧ (s.observeIrq).x = s.x ∧ (s.observeIrq).modeShadow = s.modeShadow ∧
    (s.observeIrq).host = s.host ∧ (s.observeIrq).seq = s.seq ∧ (s.observeIrq).pe = s.pe ∧
    (s.observeIrq).busFault = s.busFault ∧ (s.observeIrq).lockOwner = s.lockOwner ∧ (s.observeIrq).sel = s.sel ∧
    (s.observeIrq).devRst = s.devRst ∧ (s.observeIrq).now = s.now ∧ (s.observeIrq).senders = s.senders ∧
    (s.observeIrq).snap = s.snap ∧ (s.observeIrq).dev = s.dev ∧ (s.observeIrq).trace = s.trace ∧
    (s.observeIrq).env = s.env ∧ (s.observeIrq).busFails = s.busFails ∧ (s.observeIrq).drawn = s.drawn ∧
    (s.observeIrq).busPort = s.busPort := by
  refine ⟨?_, ?_, ?_, ?_, ?_, ?_, ?_, ?_, ?_, ?_, ?_, ?_, ?_, ?_, ?_, ?_, ?_, ?_, ?_⟩ <;> rfl

@[simp] theorem State.observeIrq_vals (s : State) :
    (s.observeIrq).irqPrev = s.devIrq ∧ (s.observeIrq).irqLatch = (s.irqLatch || (s.devIrq && !s.irqPrev)) := ⟨rfl, rfl⟩

@[simp] theorem State.setFlags_frame (s : State) (v : Byte) :
    (s.setFlags v).cfg = s.cfg ∧ (s.setFlags v).x = s.x ∧ (s.setFlags v).modeShadow = s.modeShadow ∧
    (s.setFlags v).host = s.host ∧ (s.setFlags v).seq = s.seq ∧ (s.setFlags v).pe = s.pe ∧
    (s.setFlags v).busFault = s.busFault ∧ (s.setFlags v).lockOwner = s.lockOwner ∧ (s.setFlags v).sel = s.sel ∧
    (s.setFlags v).devRst = s.devRst ∧ (s.setFlags v).now = s.now ∧ (s.setFlags v).senders = s.senders ∧
    (s.setFlags v).snap = s.snap ∧ (s.setFlags v).trace = s.trace ∧ (s.setFlags v).env = s.env ∧
    (s.setFlags v).busFails = s.busFails ∧ (s.setFlags v).drawn = s.drawn ∧ (s.setFlags v).busPort = s.busPort := by
  dsimp only [State.setFlags]
  split <;> refine ⟨?_, ?_, ?_, ?_, ?_, ?_, ?_, ?_, ?_, ?_, ?_, ?_, ?_, ?_, ?_, ?_, ?_, ?_⟩ <;> rfl

@[simp] theorem State.setFlags_vals (s : State) (v : Byte) :
    (s.setFlags v).dev.fifo = s.dev.fifo := by
  dsimp only [State.setFlags]
  split <;> rfl

@[simp] theorem State.clearFlags_frame (s : State) (v : Byte) :
    (s.clearFlags v).cfg = s.cfg ∧ (s.clearFlags v).x = s.x ∧ (s.clearFlags v).modeShadow = s.modeShadow ∧
    (s.clearFlags v).host = s.host ∧ (s.clearFlags v).seq = s.seq ∧ (s.clearFlags v).pe = s.pe ∧
    (s.clearFlags v).busFault = s.busFault ∧ (s.clearFlags v).lockOwner = s.lockOwner ∧
    (s.clearFlags v).sel = s.sel ∧ (s.clearFlags v).devRst = s.devRst ∧ (s.clearFlags v).now = s.now ∧
    (s.clearFlags v).senders = s.senders ∧ (s.clearFlags v).snap = s.snap ∧ (s.clearFlags v).trace = s.trace ∧
    (s.clearFlags v).env = s.env ∧ (s.clearFlags v).busFails = s.busFails ∧ (s.clearFlags v).drawn = s.drawn ∧
    (s.clearFlags v).busPort = s.busPort := s.setFlags_frame _

@[simp] theorem State.clearFlags_vals (s : State) (v : Byte) :
    (s.clearFlags v).dev.fifo = s.dev.fifo := s.setFlags_vals _

@[simp] theorem State.raiseFlags_frame (s : State) (v : Byte) :
    (s.raiseFlags v).cfg = s.cfg ∧ (s.raiseFlags v).x = s.x ∧ (s.raiseFlags v).modeShadow = s.modeShadow ∧
    (s.raiseFlags v).host = s.host ∧ (s.raiseFlags v).seq = s.seq ∧ (s.raiseFlags v).pe = s.pe ∧
    (s.raiseFlags v).busFault = s.busFault ∧ (s.raiseFlags v).lockOwner = s.lockOwner ∧
    (s.raiseFlags v).sel = s.sel ∧ (s.raiseFlags v).devRst = s.devRst ∧ (s.raiseFlags v).now = s.now ∧
    (s.raiseFlags v).senders = s.senders ∧ (s.raiseFlags v).snap = s.snap ∧ (s.raiseFlags v).trace = s.trace ∧
    (s.raiseFlags v).env = s.env ∧ (s.raiseFlags v).busFails = s.busFails ∧ (s.raiseFlags v).drawn = s.drawn ∧
    (s.raiseFlags v).busPort = s.busPort := s.setFlags_frame _

@[simp] theorem State.raiseFlags_vals (s : State) (v : Byte) :
    (s.raiseFlags v).dev.fifo = s.dev.fifo := s.setFlags_vals _

@[simp] theorem State.drawDevice_frame (s : State) :
    (s.drawDevice).cfg = s.cfg ∧ (s.drawDevice).x = s.x ∧ (s.drawDevice).modeShadow = s.modeShadow ∧
    (s.drawDevice).host = s.host ∧ (s.drawDevice).seq = s.seq ∧ (s.drawDevice).pe = s.pe ∧
    (s.drawDevice).busFault = s.busFault ∧ (s.drawDevice).irqLatch = s.irqLatch ∧
    (s.drawDevice).irqPrev = s.irqPrev ∧ (s.drawDevice).lockOwner = s.lockOwner ∧ (s.drawDevice).sel = s.sel ∧
    (s.drawDevice).devRst = s.devRst ∧ (s.drawDevice).now = s.now ∧ (s.drawDevice).senders = s.senders ∧
    (s.drawDevice).snap = s.snap ∧ (s.drawDevice).trace = s.trace ∧ (s.drawDevice).env = s.env ∧
    (s.drawDevice).busFails = s.busFails ∧ (s.drawDevice).busPort = s.busPort := by
  refine ⟨?_, ?_, ?_, ?_, ?_, ?_, ?_, ?_, ?_, ?_, ?_, ?_, ?_, ?_, ?_, ?_, ?_, ?_, ?_⟩ <;> rfl

@[simp] theorem State.drawDevice_vals (s : State) :
    (s.drawDevice).drawn = s.drawn + 128 + s.cfg.fifoSize := rfl

@[simp] theorem State.busBroken_frame (s : State) :
    (s.busBroken).cfg = s.cfg ∧ (s.busBroken).x = s.x ∧ (s.busBroken).modeShadow = s.modeShadow ∧
    (s.busBroken).host = s.host ∧ (s.busBroken).seq = s.seq ∧ (s.busBroken).pe = s.pe ∧
    (s.busBroken).lockOwner = s.lockOwner ∧ (s.busBroken).devRst = s.devRst ∧ (s.busBroken).now = s.now ∧
    (s.busBroken).senders = s.senders ∧ (s.busBroken).snap = s.snap ∧ (s.busBroken).trace = s.trace ∧
    (s.busBroken).env = s.env ∧ (s.busBroken).busFails = s.busFails ∧ (s.busBroken).busPort = s.busPort := by
  dsimp only [State.busBroken]
  split <;> refine ⟨?_, ?_, ?_, ?_, ?_, ?_, ?_, ?_, ?_, ?_, ?_, ?_, ?_, ?_, ?_⟩ <;> rfl

@[simp] theorem State.busBroken_vals (s : State) :
    (s.busBroken).busFault = true := by
  dsimp only [State.busBroken]
  split <;> rfl

@[simp] theorem State.devReset_frame (s : State) :
    (s.devReset).cfg = s.cfg ∧ (s.devReset).x = s.x ∧ (s.devReset).modeShadow = s.modeShadow ∧
    (s.devReset).host = s.host ∧ (s.devReset).seq = s.seq ∧ (s.devReset).pe = s.pe ∧
    (s.devReset).busFault = s.busFault ∧ (s.devReset).lockOwner = s.lockOwner ∧ (s.devReset).sel = s.sel ∧
    (s.devReset).devRst = s.devRst ∧ (s.devReset).now = s.now ∧ (s.devReset).senders = s.senders ∧
    (s.devReset).snap = s.snap ∧ (s.devReset).trace = s.trace ∧ (s.devReset).env = s.env ∧
    (s.devReset).busFails = s.busFails ∧ (s.devReset).busPort = s.busPort := by
  refine ⟨?_, ?_, ?_, ?_, ?_, ?_, ?_, ?_, ?_, ?_, ?_, ?_, ?_, ?_, ?_, ?_, ?_⟩ <;> rfl

@[simp] theorem State.log_frame (s : State) (k : BusKind) (a : Addr) (d : List Byte) (f : Bool) :
    (s.log k a d f).cfg = s.cfg ∧ (s.log k a d f).x = s.x ∧ (s.log k a d f).modeShadow = s.modeShadow ∧
    (s.log k a d f).host = s.host ∧ (s.log k a d f).seq = s.seq ∧ (s.log k a d f).pe = s.pe ∧
    (s.log k a d f).busFault = s.busFault ∧ (s.log k a d f).irqLatch = s.irqLatch ∧
    (s.log k a d f).irqPrev = s.irqPrev ∧ (s.log k a d f).lockOwner = s.lockOwner ∧ (s.log k a d f).sel = s.sel ∧
    (s.log k a d f).devRst = s.devRst ∧ (s.log k a d f).now = s.now ∧ (s.log k a d f).senders = s.senders ∧
    (s.log k a d f).snap = s.snap ∧ (s.log k a d f).dev = s.dev ∧ (s.log k a d f).env = s.env ∧
    (s.log k a d f).busFails = s.busFails ∧ (s.log k a d f).drawn = s.drawn ∧ (s.log k a d f).busPort = s.busPort := by
  refine ⟨?_, ?_, ?_, ?_, ?_, ?_, ?_, ?_, ?_, ?_, ?_, ?_, ?_, ?_, ?_, ?_, ?_, ?_, ?_, ?_⟩ <;> rfl

@[simp] theorem State.log_vals (s : State) (k : BusKind) (a : Addr) (d : List Byte) (f : Bool) :
    (s.log k a d f).trace = s.trace ++ [{ kind := k, addr := a, data := d, owner := s.lockOwner, faulted := f }] := rfl

@[simp] theorem State.failTxn_frame (s : State) (k : BusKind) (a : Addr) (d : List Byte) :
    (s.failTxn k a d).cfg = s.cfg ∧ (s.failTxn k a d).x = s.x ∧ (s.failTxn k a d).modeShadow = s.modeShadow ∧
    (s.failTxn k a d).host = s.host ∧ (s.failTxn k a d).seq = s.seq ∧ (s.failTxn k a d).pe = s.pe ∧
    (s.failTxn k a d).lockOwner = s.lockOwner ∧ (s.failTxn k a d).devRst = s.devRst ∧
    (s.failTxn k a d).now = s.now ∧ (s.failTxn k a d).senders = s.senders ∧ (s.failTxn k a d).snap = s.snap ∧
    (s.failTxn k a d).env = s.env ∧ (s.failTxn k a d).busFails = s.busFails ∧
    (s.failTxn k a d).busPort = s.busPort := by
  unfold State.failTxn
  simp

@[simp] theorem State.failTxn_vals (s : State) (k : BusKind) (a : Addr) (d : List Byte) :
    (s.failTxn k a d).busFault = true ∧
    (s.failTxn k a d).trace = s.trace ++ [{ kind := k, addr := a, data := d.take s.freeCount, owner := s.lockOwner, faulted := true }] := by
  unfold State.failTxn
  simp

@[simp] theorem State.closeTxn_frame (s : State) (k : BusKind) (a : Addr) (d : List Byte) :
    (s.closeTxn k a d).cfg = s.cfg ∧ (s.closeTxn k a d).x = s.x ∧ (s.closeTxn k a d).modeShadow = s.modeShadow ∧
    (s.closeTxn k a d).host = s.host ∧ (s.closeTxn k a d).seq = s.seq ∧ (s.closeTxn k a d).pe = s.pe ∧
    (s.closeTxn k a d).busFault = s.busFault ∧ (s.closeTxn k a d).irqLatch = s.irqLatch ∧
    (s.closeTxn k a d).irqPrev = s.irqPrev ∧ (s.closeTxn k a d).lockOwner = s.lockOwner ∧
    (s.closeTxn k a d).devRst = s.devRst ∧ (s.closeTxn k a d).now = s.now ∧
    (s.closeTxn k a d).senders = s.senders ∧ (s.closeTxn k a d).snap = s.snap ∧ (s.closeTxn k a d).dev = s.dev ∧
    (s.closeTxn k a d).env = s.env ∧ (s.closeTxn k a d).busFails = s.busFails ∧
    (s.closeTxn k a d).drawn = s.drawn ∧ (s.closeTxn k a d).busPort = s.busPort := by
  refine ⟨?_, ?_, ?_, ?_, ?_, ?_, ?_, ?_, ?_, ?_, ?_, ?_, ?_, ?_, ?_, ?_, ?_, ?_, ?_⟩ <;> rfl

@[simp] theorem State.closeTxn_vals (s : State) (k : BusKind) (a : Addr) (d : List Byte) :
    (s.closeTxn k a d).sel = false ∧
    (s.closeTxn k a d).trace = s.trace ++ [{ kind := k, addr := a, data := d, owner := s.lockOwner, faulted := false }] := ⟨rfl, rfl⟩

@[simp] theorem State.goto_frame (s : State) (m : Main) :
    (s.goto m).cfg = s.cfg ∧ (s.goto m).x = s.x ∧ (s.goto m).modeShadow = s.modeShadow ∧
    (s.goto m).host = s.host ∧ (s.goto m).pe = s.pe ∧ (s.goto m).busFault = s.busFault ∧
    (s.goto m).irqLatch = s.irqLatch ∧ (s.goto m).irqPrev = s.irqPrev ∧ (s.goto m).lockOwner = s.lockOwner ∧
    (s.goto m).sel = s.sel ∧ (s.goto m).devRst = s.devRst ∧ (s.goto m).now = s.now ∧
    (s.goto m).senders = s.senders ∧ (s.goto m).snap = s.snap ∧ (s.goto m).dev = s.dev ∧
    (s.goto m).trace = s.trace ∧ (s.goto m).env = s.env ∧ (s.goto m).busFails = s.busFails ∧
    (s.goto m).drawn = s.drawn ∧ (s.goto m).busPort = s.busPort := by
  refine ⟨?_, ?_, ?_, ?_, ?_, ?_, ?_, ?_, ?_, ?_, ?_, ?_, ?_, ?_, ?_, ?_, ?_, ?_, ?_, ?_⟩ <;> rfl

@[simp] theorem State.goto_vals (s : State) (m : Main) :
    (s.goto m).seq = ⟨m, .none⟩ := rfl

@[simp] theorem State.gotoSub_frame (s : State) (b : Sub) :
    (s.gotoSub b).cfg = s.cfg ∧ (s.gotoSub b).x = s.x ∧ (s.gotoSub b).modeShadow = s.modeShadow ∧
    (s.gotoSub b).host = s.host ∧ (s.gotoSub b).pe = s.pe ∧ (s.gotoSub b).busFault = s.busFault ∧
    (s.gotoSub b).irqLatch = s.irqLatch ∧ (s.gotoSub b).irqPrev = s.irqPrev ∧
    (s.gotoSub b).lockOwner = s.lockOwner ∧ (s.gotoSub b).sel = s.sel ∧ (s.gotoSub b).devRst = s.devRst ∧
    (s.gotoSub b).now = s.now ∧ (s.gotoSub b).senders = s.senders ∧ (s.gotoSub b).snap = s.snap ∧
    (s.gotoSub b).dev = s.dev ∧ (s.gotoSub b).trace = s.trace ∧ (s.gotoSub b).env = s.env ∧
    (s.gotoSub b).busFails = s.busFails ∧ (s.gotoSub b).drawn = s.drawn ∧ (s.gotoSub b).busPort = s.busPort := by
  refine ⟨?_, ?_, ?_, ?_, ?_, ?_, ?_, ?_, ?_, ?_, ?_, ?_, ?_, ?_, ?_, ?_, ?_, ?_, ?_, ?_⟩ <;> rfl

@[simp] theorem State.gotoSub_vals (s : State) (b : Sub) :
    (s.gotoSub b).seq = ⟨s.seq.main, b⟩ := rfl

@[simp] theorem State.callSetMode_frame (s : State) (m : Main) :
    (s.callSetMode m).cfg = s.cfg ∧ (s.callSetMode m).x = s.x ∧ (s.callSetMode m).modeShadow = s.modeShadow ∧
    (s.callSetMode m).host = s.host ∧ (s.callSetMode m).busFault = s.busFault ∧
    (s.callSetMode m).irqLatch = s.irqLatch ∧ (s.callSetMode m).irqPrev = s.irqPrev ∧
    (s.callSetMode m).lockOwner = s.lockOwner ∧ (s.callSetMode m).sel = s.sel ∧
    (s.callSetMode m).devRst = s.devRst ∧ (s.callSetMode m).now = s.now ∧ (s.callSetMode m).senders = s.senders ∧
    (s.callSetMode m).snap = s.snap ∧ (s.callSetMode m).dev = s.dev ∧ (s.callSetMode m).trace = s.trace ∧
    (s.callSetMode m).env = s.env ∧ (s.callSetMode m).busFails = s.busFails ∧ (s.callSetMode m).drawn = s.drawn ∧
    (s.callSetMode m).busPort = s.busPort := by
  refine ⟨?_, ?_, ?_, ?_, ?_, ?_, ?_, ?_, ?_, ?_, ?_, ?_, ?_, ?_, ?_, ?_, ?_, ?_, ?_⟩ <;> rfl

@[simp] theorem State.callSetMode_vals (s : State) (m : Main) :
    (s.callSetMode m).seq = ⟨m, .mRd⟩ ∧ (s.callSetMode m).pe = { s.pe with attempt := 0 } := ⟨rfl, rfl⟩

@[simp] theorem State.finish_frame (s : State) (c : Byte) (r : Word32) :
    (s.finish c r).cfg = s.cfg ∧ (s.finish c r).x = s.x ∧ (s.finish c r).modeShadow = s.modeShadow ∧
    (s.finish c r).seq = s.seq ∧ (s.finish c r).pe = s.pe ∧ (s.finish c r).busFault = s.busFault ∧
    (s.finish c r).irqLatch = s.irqLatch ∧ (s.finish c r).irqPrev = s.irqPrev ∧
    (s.finish c r).lockOwner = s.lockOwner ∧ (s.finish c r).sel = s.sel ∧ (s.finish c r).devRst = s.devRst ∧
    (s.finish c r).now = s.now ∧ (s.finish c r).senders = s.senders ∧ (s.finish c r).snap = s.snap ∧
    (s.finish c r).dev = s.dev ∧ (s.finish c r).trace = s.trace ∧ (s.finish c r).env = s.env ∧
    (s.finish c r).busFails = s.busFails ∧ (s.finish c r).drawn = s.drawn ∧ (s.finish c r).busPort = s.busPort := by
  refine ⟨?_, ?_, ?_, ?_, ?_, ?_, ?_, ?_, ?_, ?_, ?_, ?_, ?_, ?_, ?_, ?_, ?_, ?_, ?_, ?_⟩ <;> rfl

@[simp] theorem State.finish_vals (s : State) (c : Byte) (r : Word32) :
    (s.finish c r).host = { s.host with busy := false, pos := .e0, status := c, res := r } := rfl

@[simp] theorem State.raiseHost_frame (s : State) (e : Err) :
    (s.raiseHost e).cfg = s.cfg ∧ (s.raiseHost e).x = s.x ∧ (s.raiseHost e).modeShadow = s.modeShadow ∧
    (s.raiseHost e).seq = s.seq ∧ (s.raiseHost e).pe = s.pe ∧ (s.raiseHost e).busFault = s.busFault ∧
    (s.raiseHost e).irqLatch = s.irqLatch ∧ (s.raiseHost e).irqPrev = s.irqPrev ∧
    (s.raiseHost e).lockOwner = s.lockOwner ∧ (s.raiseHost e).sel = s.sel ∧ (s.raiseHost e).devRst = s.devRst ∧
    (s.raiseHost e).now = s.now ∧ (s.raiseHost e).senders = s.senders ∧ (s.raiseHost e).snap = s.snap ∧
    (s.raiseHost e).dev = s.dev ∧ (s.raiseHost e).trace = s.trace ∧ (s.raiseHost e).env = s.env ∧
    (s.raiseHost e).busFails = s.busFails ∧ (s.raiseHost e).drawn = s.drawn ∧ (s.raiseHost e).busPort = s.busPort := by
  refine ⟨?_, ?_, ?_, ?_, ?_, ?_, ?_, ?_, ?_, ?_, ?_, ?_, ?_, ?_, ?_, ?_, ?_, ?_, ?_, ?_⟩ <;> rfl

@[simp] theorem State.raiseHost_vals (s : State) (e : Err) :
    (s.raiseHost e).host = { s.host with busy := false, pos := .e0, status := e.code, res := e.info } := rfl

@[simp] theorem State.unlock_frame (s : State) :
    (s.unlock).cfg = s.cfg ∧ (s.unlock).x = s.x ∧ (s.unlock).modeShadow = s.modeShadow ∧
    (s.unlock).host = s.host ∧ (s.unlock).pe = s.pe ∧ (s.unlock).busFault = s.busFault ∧
    (s.unlock).irqLatch = s.irqLatch ∧ (s.unlock).irqPrev = s.irqPrev ∧ (s.unlock).sel = s.sel ∧
    (s.unlock).devRst = s.devRst ∧ (s.unlock).now = s.now ∧ (s.unlock).senders = s.senders ∧
    (s.unlock).snap = s.snap ∧ (s.unlock).dev = s.dev ∧ (s.unlock).trace = s.trace ∧ (s.unlock).env = s.env ∧
    (s.unlock).busFails = s.busFails ∧ (s.unlock).drawn = s.drawn ∧ (s.unlock).busPort = s.busPort := by
  refine ⟨?_, ?_, ?_, ?_, ?_, ?_, ?_, ?_, ?_, ?_, ?_, ?_, ?_, ?_, ?_, ?_, ?_, ?_, ?_⟩ <;> rfl

@[simp] theorem State.unlock_vals (s : State) :
    (s.unlock).seq = .idle ∧ (s.unlock).lockOwner = .none := ⟨rfl, rfl⟩

@[simp] theorem State.deliver_frame (s : State) (d : List Byte) (n : Byte) :
    (s.deliver d n).cfg = s.cfg ∧ (s.deliver d n).x = s.x ∧ (s.deliver d n).modeShadow = s.modeShadow ∧
    (s.deliver d n).seq = s.seq ∧ (s.deliver d n).pe = s.pe ∧ (s.deliver d n).busFault = s.busFault ∧
    (s.deliver d n).irqLatch = s.irqLatch ∧ (s.deliver d n).irqPrev = s.irqPrev ∧
    (s.deliver d n).lockOwner = s.lockOwner ∧ (s.deliver d n).sel = s.sel ∧ (s.deliver d n).devRst = s.devRst ∧
    (s.deliver d n).now = s.now ∧ (s.deliver d n).senders = s.senders ∧ (s.deliver d n).snap = s.snap ∧
    (s.deliver d n).dev = s.dev ∧ (s.deliver d n).trace = s.trace ∧ (s.deliver d n).env = s.env ∧
    (s.deliver d n).busFails = s.busFails ∧ (s.deliver d n).drawn = s.drawn ∧ (s.deliver d n).busPort = s.busPort := by
  refine ⟨?_, ?_, ?_, ?_, ?_, ?_, ?_, ?_, ?_, ?_, ?_, ?_, ?_, ?_, ?_, ?_, ?_, ?_, ?_, ?_⟩ <;> rfl

@[simp] theorem State.deliver_vals (s : State) (d : List Byte) (n : Byte) :
    (s.deliver d n).host = { s.host with rbuf := overlay s.host.rbuf d, rlen := n } := rfl

@[simp] theorem State.loadPayload_frame (s : State) (n : Nat) :
    (s.loadPayload n).cfg = s.cfg ∧ (s.loadPayload n).x = s.x ∧ (s.loadPayload n).modeShadow = s.modeShadow ∧
    (s.loadPayload n).host = s.host ∧ (s.loadPayload n).seq = s.seq ∧ (s.loadPayload n).busFault = s.busFault ∧
    (s.loadPayload n).irqLatch = s.irqLatch ∧ (s.loadPayload n).irqPrev = s.irqPrev ∧
    (s.loadPayload n).lockOwner = s.lockOwner ∧ (s.loadPayload n).sel = s.sel ∧
    (s.loadPayload n).devRst = s.devRst ∧ (s.loadPayload n).now = s.now ∧ (s.loadPayload n).senders = s.senders ∧
    (s.loadPayload n).snap = s.snap ∧ (s.loadPayload n).dev = s.dev ∧ (s.loadPayload n).trace = s.trace ∧
    (s.loadPayload n).env = s.env ∧ (s.loadPayload n).busFails = s.busFails ∧ (s.loadPayload n).drawn = s.drawn ∧
    (s.loadPayload n).busPort = s.busPort := by
  refine ⟨?_, ?_, ?_, ?_, ?_, ?_, ?_, ?_, ?_, ?_, ?_, ?_, ?_, ?_, ?_, ?_, ?_, ?_, ?_, ?_⟩ <;> rfl

@[simp] theorem State.loadPayload_vals (s : State) (n : Nat) :
    (s.loadPayload n).pe = { s.pe with buf := overlay s.pe.buf (s.host.hbuf.take n) } := rfl

@[simp] theorem State.closeBus_frame (s : State) (d : List Byte) :
    (s.closeBus d).cfg = s.cfg ∧ (s.closeBus d).x = s.x ∧ (s.closeBus d).modeShadow = s.modeShadow ∧
    (s.closeBus d).host = s.host ∧ (s.closeBus d).seq = s.seq ∧ (s.closeBus d).pe = s.pe ∧
    (s.closeBus d).busFault = s.busFault ∧ (s.closeBus d).irqLatch = s.irqLatch ∧
    (s.closeBus d).irqPrev = s.irqPrev ∧ (s.closeBus d).lockOwner = s.lockOwner ∧ (s.closeBus d).sel = s.sel ∧
    (s.closeBus d).devRst = s.devRst ∧ (s.closeBus d).now = s.now ∧ (s.closeBus d).senders = s.senders ∧
    (s.closeBus d).snap = s.snap ∧ (s.closeBus d).dev = s.dev ∧ (s.closeBus d).trace = s.trace ∧
    (s.closeBus d).env = s.env ∧ (s.closeBus d).busFails = s.busFails ∧ (s.closeBus d).drawn = s.drawn := by
  refine ⟨?_, ?_, ?_, ?_, ?_, ?_, ?_, ?_, ?_, ?_, ?_, ?_, ?_, ?_, ?_, ?_, ?_, ?_, ?_, ?_⟩ <;> rfl

@[simp] theorem State.closeBus_vals (s : State) (d : List Byte) :
    (s.closeBus d).busPort = { addrByte := none, out := [], want := 0, inp := d } := rfl

@[simp] theorem State.putSf_frame (s : State) (v : Byte) :
    (s.putSf v).cfg = s.cfg ∧ (s.putSf v).modeShadow = s.modeShadow ∧ (s.putSf v).host = s.host ∧
    (s.putSf v).seq = s.seq ∧ (s.putSf v).pe = s.pe ∧ (s.putSf v).busFault = s.busFault ∧
    (s.putSf v).irqLatch = s.irqLatch ∧ (s.putSf v).irqPrev = s.irqPrev ∧ (s.putSf v).lockOwner = s.lockOwner ∧
    (s.putSf v).sel = s.sel ∧ (s.putSf v).devRst = s.devRst ∧ (s.putSf v).now = s.now ∧
    (s.putSf v).senders = s.senders ∧ (s.putSf v).snap = s.snap ∧ (s.putSf v).dev = s.dev ∧
    (s.putSf v).trace = s.trace ∧ (s.putSf v).env = s.env ∧ (s.putSf v).busFails = s.busFails ∧
    (s.putSf v).drawn = s.drawn ∧ (s.putSf v).busPort = s.busPort := by
  refine ⟨?_, ?_, ?_, ?_, ?_, ?_, ?_, ?_, ?_, ?_, ?_, ?_, ?_, ?_, ?_, ?_, ?_, ?_, ?_, ?_⟩ <;> rfl

@[simp] theorem State.putSf_vals (s : State) (v : Byte) :
    (s.putSf v).x = { s.x with sf := some (v.setWidth 4) } := rfl

@[simp] theorem State.putBw_frame (s : State) (v : Byte) :
    (s.putBw v).cfg = s.cfg ∧ (s.putBw v).modeShadow = s.modeShadow ∧ (s.putBw v).host = s.host ∧
    (s.putBw v).seq = s.seq ∧ (s.putBw v).pe = s.pe ∧ (s.putBw v).busFault = s.busFault ∧
    (s.putBw v).irqLatch = s.irqLatch ∧ (s.putBw v).irqPrev = s.irqPrev ∧ (s.putBw v).lockOwner = s.lockOwner ∧
    (s.putBw v).sel = s.sel ∧ (s.putBw v).devRst = s.devRst ∧ (s.putBw v).now = s.now ∧
    (s.putBw v).senders = s.senders ∧ (s.putBw v).snap = s.snap ∧ (s.putBw v).dev = s.dev ∧
    (s.putBw v).trace = s.trace ∧ (s.putBw v).env = s.env ∧ (s.putBw v).busFails = s.busFails ∧
    (s.putBw v).drawn = s.drawn ∧ (s.putBw v).busPort = s.busPort := by
  refine ⟨?_, ?_, ?_, ?_, ?_, ?_, ?_, ?_, ?_, ?_, ?_, ?_, ?_, ?_, ?_, ?_, ?_, ?_, ?_, ?_⟩ <;> rfl

@[simp] theorem State.putBw_vals (s : State) (v : Byte) :
    (s.putBw v).x = { s.x with bw := some (v.setWidth 4) } := rfl

@[simp] theorem State.putCr_frame (s : State) (v : Byte) :
    (s.putCr v).cfg = s.cfg ∧ (s.putCr v).modeShadow = s.modeShadow ∧ (s.putCr v).host = s.host ∧
    (s.putCr v).seq = s.seq ∧ (s.putCr v).pe = s.pe ∧ (s.putCr v).busFault = s.busFault ∧
    (s.putCr v).irqLatch = s.irqLatch ∧ (s.putCr v).irqPrev = s.irqPrev ∧ (s.putCr v).lockOwner = s.lockOwner ∧
    (s.putCr v).sel = s.sel ∧ (s.putCr v).devRst = s.devRst ∧ (s.putCr v).now = s.now ∧
    (s.putCr v).senders = s.senders ∧ (s.putCr v).snap = s.snap ∧ (s.putCr v).dev = s.dev ∧
    (s.putCr v).trace = s.trace ∧ (s.putCr v).env = s.env ∧ (s.putCr v).busFails = s.busFails ∧
    (s.putCr v).drawn = s.drawn ∧ (s.putCr v).busPort = s.busPort := by
  refine ⟨?_, ?_, ?_, ?_, ?_, ?_, ?_, ?_, ?_, ?_, ?_, ?_, ?_, ?_, ?_, ?_, ?_, ?_, ?_, ?_⟩ <;> rfl

@[simp] theorem State.putCr_vals (s : State) (v : Byte) :
    (s.putCr v).x = { s.x with cr := some (v.setWidth 3) } := rfl

@[simp] theorem State.putCrc_frame (s : State) (v : BitVec 1) :
    (s.putCrc v).cfg = s.cfg ∧ (s.putCrc v).modeShadow = s.modeShadow ∧ (s.putCrc v).host = s.host ∧
    (s.putCrc v).seq = s.seq ∧ (s.putCrc v).pe = s.pe ∧ (s.putCrc v).busFault = s.busFault ∧
    (s.putCrc v).irqLatch = s.irqLatch ∧ (s.putCrc v).irqPrev = s.irqPrev ∧ (s.putCrc v).lockOwner = s.lockOwner ∧
    (s.putCrc v).sel = s.sel ∧ (s.putCrc v).devRst = s.devRst ∧ (s.putCrc v).now = s.now ∧
    (s.putCrc v).senders = s.senders ∧ (s.putCrc v).snap = s.snap ∧ (s.putCrc v).dev = s.dev ∧
    (s.putCrc v).trace = s.trace ∧ (s.putCrc v).env = s.env ∧ (s.putCrc v).busFails = s.busFails ∧
    (s.putCrc v).drawn = s.drawn ∧ (s.putCrc v).busPort = s.busPort := by
  refine ⟨?_, ?_, ?_, ?_, ?_, ?_, ?_, ?_, ?_, ?_, ?_, ?_, ?_, ?_, ?_, ?_, ?_, ?_, ?_, ?_⟩ <;> rfl

@[simp] theorem State.putCrc_vals (s : State) (v : BitVec 1) :
    (s.putCrc v).x = { s.x with crc := some v } := rfl

@[simp] theorem State.putPre_frame (s : State) (v : BitVec 16) :
    (s.putPre v).cfg = s.cfg ∧ (s.putPre v).modeShadow = s.modeShadow ∧ (s.putPre v).host = s.host ∧
    (s.putPre v).seq = s.seq ∧ (s.putPre v).pe = s.pe ∧ (s.putPre v).busFault = s.busFault ∧
    (s.putPre v).irqLatch = s.irqLatch ∧ (s.putPre v).irqPrev = s.irqPrev ∧ (s.putPre v).lockOwner = s.lockOwner ∧
    (s.putPre v).sel = s.sel ∧ (s.putPre v).devRst = s.devRst ∧ (s.putPre v).now = s.now ∧
    (s.putPre v).senders = s.senders ∧ (s.putPre v).snap = s.snap ∧ (s.putPre v).dev = s.dev ∧
    (s.putPre v).trace = s.trace ∧ (s.putPre v).env = s.env ∧ (s.putPre v).busFails = s.busFails ∧
    (s.putPre v).drawn = s.drawn ∧ (s.putPre v).busPort = s.busPort := by
  refine ⟨?_, ?_, ?_, ?_, ?_, ?_, ?_, ?_, ?_, ?_, ?_, ?_, ?_, ?_, ?_, ?_, ?_, ?_, ?_, ?_⟩ <;> rfl

@[simp] theorem State.putPre_vals (s : State) (v : BitVec 16) :
    (s.putPre v).x = { s.x with pre := some v } := rfl

@[simp] theorem State.putFreq_frame (s : State) (v : Word32) :
    (s.putFreq v).cfg = s.cfg ∧ (s.putFreq v).modeShadow = s.modeShadow ∧ (s.putFreq v).host = s.host ∧
    (s.putFreq v).seq = s.seq ∧ (s.putFreq v).pe = s.pe ∧ (s.putFreq v).busFault = s.busFault ∧
    (s.putFreq v).irqLatch = s.irqLatch ∧ (s.putFreq v).irqPrev = s.irqPrev ∧
    (s.putFreq v).lockOwner = s.lockOwner ∧ (s.putFreq v).sel = s.sel ∧ (s.putFreq v).devRst = s.devRst ∧
    (s.putFreq v).now = s.now ∧ (s.putFreq v).senders = s.senders ∧ (s.putFreq v).snap = s.snap ∧
    (s.putFreq v).dev = s.dev ∧ (s.putFreq v).trace = s.trace ∧ (s.putFreq v).env = s.env ∧
    (s.putFreq v).busFails = s.busFails ∧ (s.putFreq v).drawn = s.drawn ∧ (s.putFreq v).busPort = s.busPort := by
  refine ⟨?_, ?_, ?_, ?_, ?_, ?_, ?_, ?_, ?_, ?_, ?_, ?_, ?_, ?_, ?_, ?_, ?_, ?_, ?_, ?_⟩ <;> rfl

@[simp] theorem State.putFreq_vals (s : State) (v : Word32) :
    (s.putFreq v).x = { s.x with freq := some v } := rfl

@[simp] theorem State.putPwr_frame (s : State) (v : Byte) :
    (s.putPwr v).cfg = s.cfg ∧ (s.putPwr v).modeShadow = s.modeShadow ∧ (s.putPwr v).host = s.host ∧
    (s.putPwr v).seq = s.seq ∧ (s.putPwr v).pe = s.pe ∧ (s.putPwr v).busFault = s.busFault ∧
    (s.putPwr v).irqLatch = s.irqLatch ∧ (s.putPwr v).irqPrev = s.irqPrev ∧ (s.putPwr v).lockOwner = s.lockOwner ∧
    (s.putPwr v).sel = s.sel ∧ (s.putPwr v).devRst = s.devRst ∧ (s.putPwr v).now = s.now ∧
    (s.putPwr v).senders = s.senders ∧ (s.putPwr v).snap = s.snap ∧ (s.putPwr v).dev = s.dev ∧
    (s.putPwr v).trace = s.trace ∧ (s.putPwr v).env = s.env ∧ (s.putPwr v).busFails = s.busFails ∧
    (s.putPwr v).drawn = s.drawn ∧ (s.putPwr v).busPort = s.busPort := by
  refine ⟨?_, ?_, ?_, ?_, ?_, ?_, ?_, ?_, ?_, ?_, ?_, ?_, ?_, ?_, ?_, ?_, ?_, ?_, ?_, ?_⟩ <;> rfl

@[simp] theorem State.putPwr_vals (s : State) (v : Byte) :
    (s.putPwr v).x = { s.x with pwr := some v } := rfl

@[simp] theorem State.initPulse_frame (s : State) :
    (s.initPulse).cfg = s.cfg ∧ (s.initPulse).modeShadow = s.modeShadow ∧ (s.initPulse).host = s.host ∧
    (s.initPulse).seq = s.seq ∧ (s.initPulse).pe = s.pe ∧ (s.initPulse).busFault = s.busFault ∧
    (s.initPulse).lockOwner = s.lockOwner ∧ (s.initPulse).sel = s.sel ∧ (s.initPulse).now = s.now ∧
    (s.initPulse).senders = s.senders ∧ (s.initPulse).snap = s.snap ∧ (s.initPulse).trace = s.trace ∧
    (s.initPulse).env = s.env ∧ (s.initPulse).busFails = s.busFails ∧ (s.initPulse).busPort = s.busPort := by
  refine ⟨?_, ?_, ?_, ?_, ?_, ?_, ?_, ?_, ?_, ?_, ?_, ?_, ?_, ?_, ?_⟩ <;> rfl

@[simp] theorem State.initPulse_vals (s : State) :
    (s.initPulse).devRst = false ∧ (s.initPulse).x = .unset ∧ (s.initPulse).irqLatch = false := ⟨rfl, rfl, rfl⟩

@[simp] theorem State.armWait_frame (s : State) (m : Main) :
    (s.armWait m).cfg = s.cfg ∧ (s.armWait m).x = s.x ∧ (s.armWait m).modeShadow = s.modeShadow ∧
    (s.armWait m).host = s.host ∧ (s.armWait m).busFault = s.busFault ∧ (s.armWait m).irqLatch = s.irqLatch ∧
    (s.armWait m).irqPrev = s.irqPrev ∧ (s.armWait m).lockOwner = s.lockOwner ∧ (s.armWait m).sel = s.sel ∧
    (s.armWait m).devRst = s.devRst ∧ (s.armWait m).now = s.now ∧ (s.armWait m).senders = s.senders ∧
    (s.armWait m).snap = s.snap ∧ (s.armWait m).dev = s.dev ∧ (s.armWait m).trace = s.trace ∧
    (s.armWait m).env = s.env ∧ (s.armWait m).busFails = s.busFails ∧ (s.armWait m).drawn = s.drawn ∧
    (s.armWait m).busPort = s.busPort := by
  unfold State.armWait
  split <;> refine ⟨?_, ?_, ?_, ?_, ?_, ?_, ?_, ?_, ?_, ?_, ?_, ?_, ?_, ?_, ?_, ?_, ?_, ?_, ?_⟩ <;> rfl

@[simp] theorem State.armWait_vals (s : State) (m : Main) :
    (s.armWait m).seq = ⟨m, .none⟩ := by
  unfold State.armWait
  split <;> rfl

@[simp] theorem State.putSender_frame (s : State) (i : Sid) (r : Sender) :
    (s.putSender i r).cfg = s.cfg ∧ (s.putSender i r).x = s.x ∧ (s.putSender i r).modeShadow = s.modeShadow ∧
    (s.putSender i r).host = s.host ∧ (s.putSender i r).seq = s.seq ∧ (s.putSender i r).pe = s.pe ∧
    (s.putSender i r).busFault = s.busFault ∧ (s.putSender i r).irqLatch = s.irqLatch ∧
    (s.putSender i r).irqPrev = s.irqPrev ∧ (s.putSender i r).lockOwner = s.lockOwner ∧
    (s.putSender i r).sel = s.sel ∧ (s.putSender i r).devRst = s.devRst ∧ (s.putSender i r).now = s.now ∧
    (s.putSender i r).snap = s.snap ∧ (s.putSender i r).dev = s.dev ∧ (s.putSender i r).trace = s.trace ∧
    (s.putSender i r).env = s.env ∧ (s.putSender i r).busFails = s.busFails ∧ (s.putSender i r).drawn = s.drawn ∧
    (s.putSender i r).busPort = s.busPort := by
  refine ⟨?_, ?_, ?_, ?_, ?_, ?_, ?_, ?_, ?_, ?_, ?_, ?_, ?_, ?_, ?_, ?_, ?_, ?_, ?_, ?_⟩ <;> rfl

@[simp] theorem State.putSender_vals (s : State) (i : Sid) (r : Sender) :
    (s.putSender i r).senders = s.senders.set i r := rfl

end Sys2Proof.Machine
end

