-- ==== Sys2Proof/Laws/Device.lean ====
section
/-! SUPPORT. What the device can do in a transaction: reads of single registers after each update, the canonical form kept, and for `devRead` and `devWrite` one theorem each that says everything they can change. -/

namespace Sys2Proof.Machine

/-! ## Reading one register or cell after an update -/

theorem addr_ne {a b : Addr} (h : a ≠ b) : a.toNat ≠ b.toNat := fun e => h (BitVec.eq_of_toNat_eq e)

theorem State.devReg_putReg (s : State) (a : Addr) (v : Byte) (b : Addr) :
    (s.putReg a v).devReg b = if a = b then v else s.devReg b := by
  simp only [State.devReg, State.putReg_vals, Memory.read_write]
  by_cases h : a = b
  · simp [h]
  · simp [h, addr_ne h]

@[simp] theorem State.devReg_putReg_same (s : State) (a : Addr) (v : Byte) : (s.putReg a v).devReg a = v := by
  simp [State.devReg_putReg]

theorem State.devReg_putReg_other (s : State) {a b : Addr} (v : Byte) (h : a ≠ b) :
    (s.putReg a v).devReg b = s.devReg b := by
  simp [State.devReg_putReg, h]

@[simp] theorem State.devFifo_putReg (s : State) (a : Addr) (v : Byte) (k : Nat) :
    (s.putReg a v).devFifo k = s.devFifo k := rfl

theorem State.devReg_congr {s t : State} (h : t.dev.reg = s.dev.reg) (a : Addr) : t.devReg a = s.devReg a := by
  simp [State.devReg, h]

theorem State.devFifo_congr {s t : State} (h : t.dev.fifo = s.dev.fifo) (k : Nat) : t.devFifo k = s.devFifo k := by
  simp [State.devFifo, h]

/-- After `setFlags` the flags are the value given. -/
@[simp] theorem State.flags_setFlags (s : State) (v : Byte) : (s.setFlags v).flags = v := by
  unfold State.setFlags
  split
  · next h => exact h.symm
  · show ((s.putReg s.cfg.aIrqFlags v).observeIrq).flags = v
    simp [State.flags, State.devReg]

/-- `setFlags` changes no register but the flags. -/
theorem State.devReg_setFlags_other (s : State) (v : Byte) {a : Addr} (h : s.cfg.aIrqFlags ≠ a) :
    (s.setFlags v).devReg a = s.devReg a := by
  unfold State.setFlags
  split
  · rfl
  · exact s.devReg_putReg_other v h

/-! ## The canonical form -/

theorem MemoryOk.of_eq {s t : State} (h : MemoryOk s) (hd : t.dev = s.dev) (hc : t.cfg = s.cfg) : MemoryOk t :=
  ⟨by rw [hd]; exact h.regWf, by rw [hd]; exact h.regInside, by rw [hd]; exact h.fifoWf,
   by rw [hd, hc]; exact h.fifoInside⟩

theorem MemoryOk.putReg {s : State} (h : MemoryOk s) (a : Addr) (v : Byte) : MemoryOk (s.putReg a v) :=
  ⟨Memory.wf_write _ _ h.regWf, Memory.inside_write _ h.regInside a.isLt, h.fifoWf, h.fifoInside⟩

theorem MemoryOk.setFlags {s : State} (h : MemoryOk s) (v : Byte) : MemoryOk (s.setFlags v) := by
  unfold State.setFlags
  split
  · exact h
  · exact (h.putReg s.cfg.aIrqFlags v).of_eq (by simp) (by simp)

theorem MemoryOk.drawDevice (s : State) : MemoryOk s.drawDevice :=
  ⟨Memory.wf_fill _ _, Memory.inside_fill _ _, Memory.wf_fill _ _, Memory.inside_fill _ _⟩

theorem MemoryOk.busBroken (s : State) : MemoryOk s.busBroken := by
  dsimp only [State.busBroken]
  split <;> exact (MemoryOk.drawDevice s).of_eq rfl rfl

theorem MemoryOk.devReset (s : State) : MemoryOk s.devReset :=
  ((MemoryOk.drawDevice s).putReg _ _).of_eq rfl rfl

theorem MemoryOk.failTxn (s : State) (k : BusKind) (a : Addr) (d : List Byte) : MemoryOk (s.failTxn k a d) :=
  (MemoryOk.busBroken (s.log k a (d.take s.freeCount) true)).of_eq rfl rfl

/-! ## What a device access can change -/

/-- Everything a bus transaction leaves alone: all of the state but the device, the interrupt latch, the fault bit,
the select line, the log and the count of free values. -/
structure BusEffect (s t : State) : Prop where
  cfg : t.cfg = s.cfg
  x : t.x = s.x
  modeShadow : t.modeShadow = s.modeShadow
  host : t.host = s.host
  seq : t.seq = s.seq
  pe : t.pe = s.pe
  lockOwner : t.lockOwner = s.lockOwner
  devRst : t.devRst = s.devRst
  now : t.now = s.now
  senders : t.senders = s.senders
  snap : t.snap = s.snap
  env : t.env = s.env
  busFails : t.busFails = s.busFails
  busPort : t.busPort = s.busPort
  memory : MemoryOk s → MemoryOk t

/-- A device access changes nothing but the device, the latch and the count of free values. -/
structure DevEffect (s t : State) : Prop extends BusEffect s t where
  busFault : t.busFault = s.busFault
  sel : t.sel = s.sel
  trace : t.trace = s.trace

theorem DevEffect.rfl' (s : State) : DevEffect s s := by
  constructor <;> first | rfl | (constructor <;> first | rfl | exact id)

theorem devEffect_putReg (s : State) (a : Addr) (v : Byte) : DevEffect s (s.putReg a v) := by
  constructor <;> first | rfl | (constructor <;> first | rfl | exact fun h => h.putReg a v)

theorem devEffect_setFlags (s : State) (v : Byte) : DevEffect s (s.setFlags v) := by
  constructor <;> first | simp | (constructor <;> first | simp | exact fun h => h.setFlags v)

theorem devFifoRead_done {n : Nat} {s t : State} {bs : List Byte} (h : devFifoRead n s = .done bs t) :
    s.fifoPtr < s.cfg.fifoSize ∧ bs = fifoRead s.cfg.fifoSize s.dev.fifo s.fifoPtr n ∧
      t = s.setFifoPtr (fifoPtrAfter s.cfg.fifoSize s.fifoPtr n) := by
  unfold devFifoRead at h
  split at h
  · next hp => cases h; exact ⟨hp, rfl, rfl⟩
  · cases h

theorem devFifoWrite_done {d : List Byte} {s t : State} {bs : List Byte} (h : devFifoWrite d s = .done bs t) :
    s.fifoPtr < s.cfg.fifoSize ∧ bs = [] ∧
      t = ({ s with dev := { s.dev with fifo := fifoWrite s.cfg.fifoSize s.dev.fifo s.fifoPtr d } } : State).setFifoPtr
        (fifoPtrAfter s.cfg.fifoSize s.fifoPtr d.length) := by
  unfold devFifoWrite at h
  split at h
  · next hp => cases h; exact ⟨hp, rfl, rfl⟩
  · cases h

theorem MemoryOk.fifoWrite {s : State} (h : MemoryOk s) {p : Nat} (hp : p < s.cfg.fifoSize) (d : List Byte) :
    MemoryOk { s with dev := { s.dev with fifo := Machine.fifoWrite s.cfg.fifoSize s.dev.fifo p d } } :=
  ⟨h.regWf, h.regInside, fifoWrite_wf _ _ _ _ h.fifoWf, fifoWrite_inside (by omega) _ _ _ hp h.fifoInside⟩

/-- What a read can do: it touches the pointer at most. -/
theorem devRead_effect {a : Addr} {n : Nat} {s t : State} {bs : List Byte} (h : devRead a n s = .done bs t) :
    DevEffect s t ∧ bs.length = n := by
  unfold devRead at h
  split at h
  · obtain ⟨-, rfl, rfl⟩ := devFifoRead_done h
    exact ⟨devEffect_putReg _ _ _, by simp⟩
  · split at h
    · next hn =>
      unfold devRegRead at h
      split at h <;> cases h
      · refine ⟨?_, hn.symm⟩
        constructor <;> first | rfl | (constructor <;> first | rfl | exact fun h => h.of_eq rfl rfl)
      · exact ⟨DevEffect.rfl' s, hn.symm⟩
    · cases h

/-- What a write can do. -/
theorem devWrite_effect {a : Addr} {d : List Byte} {s t : State} {bs : List Byte} (h : devWrite a d s = .done bs t) :
    DevEffect s t := by
  unfold devWrite at h
  split at h
  · obtain ⟨hp, -, rfl⟩ := devFifoWrite_done h
    constructor <;> first | rfl | (constructor <;> first | rfl | exact fun h => (h.fifoWrite hp d).putReg _ _)
  · split at h
    · cases h
      unfold devRegWrite
      split
      · exact devEffect_setFlags _ _
      · split
        · constructor <;> first | rfl | (constructor <;> first | rfl | exact fun h => (h.putReg _ _).of_eq rfl rfl)
        · exact devEffect_putReg _ _ _
    · cases h

/-- A device access stops for one of two reasons only. -/
theorem devRead_stop (a : Addr) (n : Nat) (s : State) :
    (∀ f, devRead a n s = .fault f → f = .fifoPointerOutside ∧ a = s.cfg.aFifo ∧ ¬ s.fifoPtr < s.cfg.fifoSize) ∧
    (∀ r, devRead a n s = .refused r → r = .burstOffFifo ∧ a ≠ s.cfg.aFifo ∧ n ≠ 1) := by
  unfold devRead devFifoRead devRegRead
  refine ⟨fun f h => ?_, fun r h => ?_⟩
  · (repeat' split at h) <;> simp_all
  · (repeat' split at h) <;> simp_all

theorem devWrite_stop (a : Addr) (d : List Byte) (s : State) :
    (∀ f, devWrite a d s = .fault f → f = .fifoPointerOutside ∧ a = s.cfg.aFifo ∧ ¬ s.fifoPtr < s.cfg.fifoSize) ∧
    (∀ r, devWrite a d s = .refused r → r = .burstOffFifo ∧ a ≠ s.cfg.aFifo ∧ d.length ≠ 1) := by
  unfold devWrite devFifoWrite
  refine ⟨fun f h => ?_, fun r h => ?_⟩
  · (repeat' split at h) <;> simp_all
  · split at h
    · split at h <;> cases h
    · next ha =>
      split at h
      · cases h
      · next hne =>
        cases h
        refine ⟨rfl, ha, fun hl => ?_⟩
        obtain ⟨v, rfl⟩ := List.length_eq_one_iff.1 hl
        exact hne v rfl

end Sys2Proof.Machine
end

