-- ==== Sys2Proof/Laws/Ops.lean ====
section
/-! SUPPORT. What a bus transaction and a micro-step can do: one theorem each for `busRead` and `busWrite` that says every way they end, and a Hoare triple for micro-steps (`Micro.Sat`), so that no later proof unfolds them. -/

namespace Sys2Proof.Machine

/-! ## Transactions -/

/-- Everything a transaction can do, whether it completes or fails: nothing beyond `BusEffect`; the fault bit never
falls; the select line is released unless the bus has faulted; at most one record is appended, owned by the holder of
the lock; with the bus faulted nothing is recorded. -/
structure TxnEffect (s t : State) : Prop extends BusEffect s t where
  sticky : s.busFault = true → t = s
  healthy : s.busFails = false → t.busFault = s.busFault
  sel : (s.busFault = false → s.sel = false) → t.busFault = false → t.sel = false
  trace : t.trace = s.trace ∨
    (∃ r, t.trace = s.trace ++ [r] ∧ r.owner = s.lockOwner) ∧ s.lockOwner ≠ .none ∧ s.busFault = false

theorem TxnEffect.rfl' (s : State) : TxnEffect s s where
  toBusEffect := (DevEffect.rfl' s).toBusEffect
  sticky := fun _ => rfl
  healthy := fun _ => rfl
  sel := fun h => h
  trace := .inl rfl

theorem txnEffect_close {s t : State} (h : DevEffect s t) (hf : s.busFault = false) (ho : s.lockOwner ≠ .none)
    (k : BusKind) (a : Addr) (d : List Byte) : TxnEffect s (t.closeTxn k a d) where
  cfg := by simp [h.cfg]
  x := by simp [h.x]
  modeShadow := by simp [h.modeShadow]
  host := by simp [h.host]
  seq := by simp [h.seq]
  pe := by simp [h.pe]
  lockOwner := by simp [h.lockOwner]
  devRst := by simp [h.devRst]
  now := by simp [h.now]
  senders := by simp [h.senders]
  snap := by simp [h.snap]
  env := by simp [h.env]
  busFails := by simp [h.busFails]
  busPort := by simp [h.busPort]
  memory := fun hm => (h.memory hm).of_eq (by simp) (by simp)
  sticky := by simp [hf]
  healthy := by simp [h.busFault]
  sel := by simp
  trace := .inr ⟨⟨_, by simp [h.trace]; rfl, by simp [h.lockOwner]⟩, ho, hf⟩

theorem txnEffect_fail {s : State} (hf : s.busFault = false) (ho : s.lockOwner ≠ .none) (hx : s.busFails = true)
    (k : BusKind) (a : Addr) (d : List Byte) : TxnEffect s (s.failTxn k a d) where
  cfg := by simp
  x := by simp
  modeShadow := by simp
  host := by simp
  seq := by simp
  pe := by simp
  lockOwner := by simp
  devRst := by simp
  now := by simp
  senders := by simp
  snap := by simp
  env := by simp
  busFails := by simp
  busPort := by simp
  memory := fun _ => MemoryOk.failTxn s k a d
  sticky := by simp [hf]
  healthy := by simp [hx]
  sel := by simp
  trace := .inr ⟨⟨_, by simp; rfl, rfl⟩, ho, hf⟩

/-- How a read transaction ends. -/
theorem busRead_cases (a : Addr) (n : Nat) (s : State) :
    (∃ bs t, busRead a n s = .done bs t ∧ TxnEffect s t ∧ s.busFault = false ∧ t.busFault = false ∧
        s.lockOwner ≠ .none ∧ bs.length = n) ∨
    (∃ t, busRead a n s = .failed t ∧ TxnEffect s t ∧ t.busFault = true) ∨
    (busRead a n s = .fault .busWithoutLock ∧ s.lockOwner = .none) ∨
    (busRead a n s = .fault .fifoPointerOutside ∧ a = s.cfg.aFifo ∧ ¬ s.fifoPtr < s.cfg.fifoSize) ∨
    (busRead a n s = .refused .burstOffFifo ∧ a ≠ s.cfg.aFifo ∧ n ≠ 1) := by
  unfold busRead
  split
  · next h => exact .inr (.inl ⟨s, rfl, .rfl' s, h⟩)
  next hf =>
  have hf : s.busFault = false := by simpa using hf
  split
  · next h => exact .inr (.inr (.inl ⟨rfl, h⟩))
  next ho =>
  split
  · next h => exact .inr (.inl ⟨_, rfl, txnEffect_fail hf ho h _ _ _, by simp⟩)
  split
  · next bs t h =>
    have he := devRead_effect h
    exact .inl ⟨bs, _, rfl, txnEffect_close he.1 hf ho _ _ _, hf, by simp [he.1.busFault, hf], ho, he.2⟩
  · next f h =>
    obtain ⟨rfl, h1, h2⟩ := (devRead_stop a n s).1 f h
    exact .inr (.inr (.inr (.inl ⟨rfl, h1, h2⟩)))
  · next r h =>
    obtain ⟨rfl, h1, h2⟩ := (devRead_stop a n s).2 r h
    exact .inr (.inr (.inr (.inr ⟨rfl, h1, h2⟩)))

/-- How a write transaction ends. -/
theorem busWrite_cases (a : Addr) (d : List Byte) (s : State) :
    (∃ t, busWrite a d s = .done [] t ∧ TxnEffect s t ∧ s.busFault = false ∧ t.busFault = false ∧
        s.lockOwner ≠ .none) ∨
    (∃ t, busWrite a d s = .failed t ∧ TxnEffect s t ∧ t.busFault = true) ∨
    (busWrite a d s = .fault .busWithoutLock ∧ s.lockOwner = .none) ∨
    (busWrite a d s = .fault .fifoPointerOutside ∧ a = s.cfg.aFifo ∧ ¬ s.fifoPtr < s.cfg.fifoSize) ∨
    (busWrite a d s = .refused .burstOffFifo ∧ a ≠ s.cfg.aFifo ∧ d.length ≠ 1) := by
  unfold busWrite
  split
  · next h => exact .inr (.inl ⟨s, rfl, .rfl' s, h⟩)
  next hf =>
  have hf : s.busFault = false := by simpa using hf
  split
  · next h => exact .inr (.inr (.inl ⟨rfl, h⟩))
  next ho =>
  split
  · next h => exact .inr (.inl ⟨_, rfl, txnEffect_fail hf ho h _ _ _, by simp⟩)
  split
  · next bs t h =>
    have he := devWrite_effect h
    exact .inl ⟨_, rfl, txnEffect_close he hf ho _ _ _, hf, by simp [he.busFault, hf], ho⟩
  · next f h =>
    obtain ⟨rfl, h1, h2⟩ := (devWrite_stop a d s).1 f h
    exact .inr (.inr (.inr (.inl ⟨rfl, h1, h2⟩)))
  · next r h =>
    obtain ⟨rfl, h1, h2⟩ := (devWrite_stop a d s).2 r h
    exact .inr (.inr (.inr (.inr ⟨rfl, h1, h2⟩)))

/-! ## Micro-steps -/

/-- What a claim asks of each way a micro-step can end. -/
structure Post where
  cont : State → Prop
  done : Word32 → State → Prop
  raise : Err → State → Prop
  fault : Fault → Prop
  refused : Refusal → Prop

/-- A micro-step ends in one of the ways a claim allows. -/
def Micro.Sat (m : Micro) (p : Post) : Prop :=
  match m with
  | .cont s => p.cont s
  | .done r s => p.done r s
  | .raise e s => p.raise e s
  | .fault f => p.fault f
  | .refused r => p.refused r

@[simp] theorem Micro.sat_cont (s : State) (p : Post) : (Micro.cont s).Sat p = p.cont s := rfl
@[simp] theorem Micro.sat_done (r : Word32) (s : State) (p : Post) : (Micro.done r s).Sat p = p.done r s := rfl
@[simp] theorem Micro.sat_raise (e : Err) (s : State) (p : Post) : (Micro.raise e s).Sat p = p.raise e s := rfl
@[simp] theorem Micro.sat_fault (f : Fault) (p : Post) : (Micro.fault f).Sat p = p.fault f := rfl
@[simp] theorem Micro.sat_refused (r : Refusal) (p : Post) : (Micro.refused r).Sat p = p.refused r := rfl

/-- The stops a transaction at an address other than the FIFO, of one byte, can end in. -/
def Post.SingleStops (p : Post) (s : State) (a : Addr) : Prop :=
  (s.lockOwner = .none → p.fault .busWithoutLock) ∧
    (a = s.cfg.aFifo → ¬ s.fifoPtr < s.cfg.fifoSize → p.fault .fifoPointerOutside)

/-- A micro-step that reads one register. -/
theorem readReg_sat {a : Addr} {s : State} {k : Byte → State → Micro} {p : Post}
    (hk : ∀ b t, TxnEffect s t → t.busFault = false → s.lockOwner ≠ .none → (k b t).Sat p)
    (hr : ∀ t, TxnEffect s t → t.busFault = true → p.raise .busFault t) (hs : p.SingleStops s a) :
    (readReg a s k).Sat p := by
  unfold readReg Txn.andThen
  rcases busRead_cases a 1 s with ⟨bs, t, h, he, -, hb, ho, -⟩ | ⟨t, h, he, hb⟩ | ⟨h, ho⟩ | ⟨h, ha, hp⟩ | ⟨-, -, hn⟩
  · rw [h]; exact hk _ _ he hb ho
  · rw [h]; exact hr _ he hb
  · rw [h]; exact hs.1 ho
  · rw [h]; exact hs.2 ha hp
  · exact absurd rfl hn

/-- A micro-step that writes one register. -/
theorem writeReg_sat {a : Addr} {v : Byte} {s : State} {k : State → Micro} {p : Post}
    (hk : ∀ t, TxnEffect s t → t.busFault = false → s.lockOwner ≠ .none → (k t).Sat p)
    (hr : ∀ t, TxnEffect s t → t.busFault = true → p.raise .busFault t) (hs : p.SingleStops s a) :
    (writeReg a v s k).Sat p := by
  unfold writeReg Txn.andThen
  rcases busWrite_cases a [v] s with ⟨t, h, he, -, hb, ho⟩ | ⟨t, h, he, hb⟩ | ⟨h, ho⟩ | ⟨h, ha, hp⟩ | ⟨-, -, hn⟩
  · rw [h]; exact hk _ he hb ho
  · rw [h]; exact hr _ he hb
  · rw [h]; exact hs.1 ho
  · rw [h]; exact hs.2 ha hp
  · exact absurd rfl hn

/-- A micro-step that reads a burst. -/
theorem burstRead_sat {a : Addr} {n : Nat} {s : State} {k : List Byte → State → Micro} {p : Post}
    (hk : ∀ bs t, TxnEffect s t → t.busFault = false → s.lockOwner ≠ .none → bs.length = n → (k bs t).Sat p)
    (hr : ∀ t, TxnEffect s t → t.busFault = true → p.raise .busFault t) (hs : p.SingleStops s a)
    (hf : a ≠ s.cfg.aFifo → n ≠ 1 → p.refused .burstOffFifo) : ((busRead a n s).andThen k).Sat p := by
  unfold Txn.andThen
  rcases busRead_cases a n s with ⟨bs, t, h, he, -, hb, ho, hl⟩ | ⟨t, h, he, hb⟩ | ⟨h, ho⟩ | ⟨h, ha, hp⟩ | ⟨h, ha, hn⟩
  · rw [h]; exact hk _ _ he hb ho hl
  · rw [h]; exact hr _ he hb
  · rw [h]; exact hs.1 ho
  · rw [h]; exact hs.2 ha hp
  · rw [h]; exact hf ha hn

/-- A micro-step that writes a burst. -/
theorem burstWrite_sat {a : Addr} {d : List Byte} {s : State} {k : List Byte → State → Micro} {p : Post}
    (hk : ∀ t, TxnEffect s t → t.busFault = false → s.lockOwner ≠ .none → (k [] t).Sat p)
    (hr : ∀ t, TxnEffect s t → t.busFault = true → p.raise .busFault t) (hs : p.SingleStops s a)
    (hf : a ≠ s.cfg.aFifo → d.length ≠ 1 → p.refused .burstOffFifo) : ((busWrite a d s).andThen k).Sat p := by
  unfold Txn.andThen
  rcases busWrite_cases a d s with ⟨t, h, he, -, hb, ho⟩ | ⟨t, h, he, hb⟩ | ⟨h, ho⟩ | ⟨h, ha, hp⟩ | ⟨h, ha, hn⟩
  · rw [h]; exact hk _ he hb ho
  · rw [h]; exact hr _ he hb
  · rw [h]; exact hs.1 ho
  · rw [h]; exact hs.2 ha hp
  · rw [h]; exact hf ha hn

/-- What follows the return of a procedure. -/
theorem Micro.onDone_sat {m : Micro} {k : Word32 → State → Micro} {p : Post}
    (h : m.Sat { p with done := fun r s => (k r s).Sat p }) : (m.onDone k).Sat p := by
  cases m <;> exact h

/-- A weaker claim. -/
theorem Micro.Sat.mono {m : Micro} {p q : Post} (h : m.Sat p) (hc : ∀ s, p.cont s → q.cont s)
    (hd : ∀ r s, p.done r s → q.done r s) (hr : ∀ e s, p.raise e s → q.raise e s)
    (hf : ∀ f, p.fault f → q.fault f) (hu : ∀ r, p.refused r → q.refused r) : m.Sat q := by
  cases m
  · exact hc _ h
  · exact hd _ _ h
  · exact hr _ _ h
  · exact hf _ h
  · exact hu _ h

end Sys2Proof.Machine
end

