-- ==== Sys2Proof/Laws/Healthy.lean ====
section
/-! SUPPORT. What a micro-step does on a healthy bus, exactly: the single read and write of plain registers, the flags, the FIFO; and the distinctness of the named addresses of a well-formed configuration. -/

namespace Sys2Proof.Machine

/-- A transaction can start and will not fail: the lock is held and the bus is healthy. -/
structure BusReady (s : State) : Prop where
  owner : s.lockOwner ≠ .none
  busFault : s.busFault = false
  busFails : s.busFails = false

theorem HostAt.ready {s : State} {q : Seq} (h : HostAt s q) : BusReady s :=
  ⟨by rw [h.owner]; simp, h.busFault, h.busFails⟩

/-- The named addresses are pairwise distinct (00_scope.md R8). -/
theorem Config.nodup_of_wf {c : Config} (h : c.wf = true) : c.namedAddrs.Nodup := by
  simp only [Config.wf, Config.addrsDistinct, Bool.and_eq_true, decide_eq_true_eq] at h
  exact h.1.1.1.1.1.1.1.1.1.1.1

/-- A well-formed configuration has the bytes of the maximum power setting that R7 fixes. -/
theorem Config.paMax_of_wf {c : Config} (h : c.wf = true) : c.paCfgMax = 0xFF ∧ c.paDacMax = 0x87 := by
  simp only [Config.wf, Config.sourceOk, Bool.and_eq_true, beq_iff_eq] at h
  exact ⟨h.2.1.2, h.2.2⟩

/-- What an observed change of the flags register leaves in the latch and the remembered level. -/
theorem State.edges_setFlags (s : State) (v : Byte) :
    ((s.setFlags v).irqLatch, (s.setFlags v).irqPrev) = s.edgesAfter v := by
  unfold State.setFlags State.edgesAfter
  split
  · rfl
  · simp [State.observeIrq, State.devIrq, State.flags, State.devReg, State.putReg, flagTxDone, flagRxDone]

/-- Two different places of the list of named addresses hold different addresses. -/
theorem Config.named_ne {c : Config} (h : c.wf = true) (i j : Fin 19) (hij : i ≠ j) :
    c.namedAddrs[i.val]'i.isLt ≠ c.namedAddrs[j.val]'j.isLt := by
  intro e
  exact hij (Fin.ext ((Config.nodup_of_wf h).getElem_inj_iff.1 e))

/-- A named register other than the FIFO reads as stored. -/
theorem readsStored_named {s : State} (h : s.cfg.wf = true) (i : Fin 19) (hi : i ≠ 0) :
    readsStored s (s.cfg.namedAddrs[i.val]'i.isLt) :=
  ⟨Config.named_ne h i 0 hi, .inl (List.getElem_mem _)⟩

/-! The registers the block itself uses, one theorem each: where a write is plain storage, and where a read gives what
is stored. -/
theorem Config.plain_aOpmode {c : Config} (h : c.wf = true) : plainAddr c c.aOpmode :=
  ⟨Config.named_ne h 1 0 (by decide), Config.named_ne h 1 10 (by decide), Config.named_ne h 1 9 (by decide), Config.named_ne h 1 11 (by decide)⟩

theorem Config.plain_aFrfMsb {c : Config} (h : c.wf = true) : plainAddr c c.aFrfMsb :=
  ⟨Config.named_ne h 2 0 (by decide), Config.named_ne h 2 10 (by decide), Config.named_ne h 2 9 (by decide), Config.named_ne h 2 11 (by decide)⟩

theorem Config.plain_aFrfMid {c : Config} (h : c.wf = true) : plainAddr c c.aFrfMid :=
  ⟨Config.named_ne h 3 0 (by decide), Config.named_ne h 3 10 (by decide), Config.named_ne h 3 9 (by decide), Config.named_ne h 3 11 (by decide)⟩

theorem Config.plain_aFrfLsb {c : Config} (h : c.wf = true) : plainAddr c c.aFrfLsb :=
  ⟨Config.named_ne h 4 0 (by decide), Config.named_ne h 4 10 (by decide), Config.named_ne h 4 9 (by decide), Config.named_ne h 4 11 (by decide)⟩

theorem Config.plain_aPaConfig {c : Config} (h : c.wf = true) : plainAddr c c.aPaConfig :=
  ⟨Config.named_ne h 5 0 (by decide), Config.named_ne h 5 10 (by decide), Config.named_ne h 5 9 (by decide), Config.named_ne h 5 11 (by decide)⟩

theorem Config.plain_aFifoAddrPtr {c : Config} (h : c.wf = true) : plainAddr c c.aFifoAddrPtr :=
  ⟨Config.named_ne h 6 0 (by decide), Config.named_ne h 6 10 (by decide), Config.named_ne h 6 9 (by decide), Config.named_ne h 6 11 (by decide)⟩

theorem Config.plain_aFifoTxBase {c : Config} (h : c.wf = true) : plainAddr c c.aFifoTxBase :=
  ⟨Config.named_ne h 7 0 (by decide), Config.named_ne h 7 10 (by decide), Config.named_ne h 7 9 (by decide), Config.named_ne h 7 11 (by decide)⟩

theorem Config.plain_aFifoRxBase {c : Config} (h : c.wf = true) : plainAddr c c.aFifoRxBase :=
  ⟨Config.named_ne h 8 0 (by decide), Config.named_ne h 8 10 (by decide), Config.named_ne h 8 9 (by decide), Config.named_ne h 8 11 (by decide)⟩

theorem Config.plain_aModemConfig1 {c : Config} (h : c.wf = true) : plainAddr c c.aModemConfig1 :=
  ⟨Config.named_ne h 12 0 (by decide), Config.named_ne h 12 10 (by decide), Config.named_ne h 12 9 (by decide), Config.named_ne h 12 11 (by decide)⟩

theorem Config.plain_aModemConfig2 {c : Config} (h : c.wf = true) : plainAddr c c.aModemConfig2 :=
  ⟨Config.named_ne h 13 0 (by decide), Config.named_ne h 13 10 (by decide), Config.named_ne h 13 9 (by decide), Config.named_ne h 13 11 (by decide)⟩

theorem Config.plain_aPreambleMsb {c : Config} (h : c.wf = true) : plainAddr c c.aPreambleMsb :=
  ⟨Config.named_ne h 14 0 (by decide), Config.named_ne h 14 10 (by decide), Config.named_ne h 14 9 (by decide), Config.named_ne h 14 11 (by decide)⟩

theorem Config.plain_aPreambleLsb {c : Config} (h : c.wf = true) : plainAddr c c.aPreambleLsb :=
  ⟨Config.named_ne h 15 0 (by decide), Config.named_ne h 15 10 (by decide), Config.named_ne h 15 9 (by decide), Config.named_ne h 15 11 (by decide)⟩

theorem Config.plain_aPayloadLength {c : Config} (h : c.wf = true) : plainAddr c c.aPayloadLength :=
  ⟨Config.named_ne h 16 0 (by decide), Config.named_ne h 16 10 (by decide), Config.named_ne h 16 9 (by decide), Config.named_ne h 16 11 (by decide)⟩

theorem Config.plain_aModemConfig3 {c : Config} (h : c.wf = true) : plainAddr c c.aModemConfig3 :=
  ⟨Config.named_ne h 17 0 (by decide), Config.named_ne h 17 10 (by decide), Config.named_ne h 17 9 (by decide), Config.named_ne h 17 11 (by decide)⟩

theorem Config.plain_aPaDac {c : Config} (h : c.wf = true) : plainAddr c c.aPaDac :=
  ⟨Config.named_ne h 18 0 (by decide), Config.named_ne h 18 10 (by decide), Config.named_ne h 18 9 (by decide), Config.named_ne h 18 11 (by decide)⟩

theorem reads_aOpmode {s : State} (h : s.cfg.wf = true) : readsStored s s.cfg.aOpmode :=
  readsStored_named h 1 (by decide)

theorem reads_aFrfMsb {s : State} (h : s.cfg.wf = true) : readsStored s s.cfg.aFrfMsb :=
  readsStored_named h 2 (by decide)

theorem reads_aFrfMid {s : State} (h : s.cfg.wf = true) : readsStored s s.cfg.aFrfMid :=
  readsStored_named h 3 (by decide)

theorem reads_aFrfLsb {s : State} (h : s.cfg.wf = true) : readsStored s s.cfg.aFrfLsb :=
  readsStored_named h 4 (by decide)

theorem reads_aPaConfig {s : State} (h : s.cfg.wf = true) : readsStored s s.cfg.aPaConfig :=
  readsStored_named h 5 (by decide)

theorem reads_aFifoAddrPtr {s : State} (h : s.cfg.wf = true) : readsStored s s.cfg.aFifoAddrPtr :=
  readsStored_named h 6 (by decide)

theorem reads_aFifoTxBase {s : State} (h : s.cfg.wf = true) : readsStored s s.cfg.aFifoTxBase :=
  readsStored_named h 7 (by decide)

theorem reads_aFifoRxBase {s : State} (h : s.cfg.wf = true) : readsStored s s.cfg.aFifoRxBase :=
  readsStored_named h 8 (by decide)

theorem reads_aFifoRxCurrent {s : State} (h : s.cfg.wf = true) : readsStored s s.cfg.aFifoRxCurrent :=
  readsStored_named h 9 (by decide)

theorem reads_aIrqFlags {s : State} (h : s.cfg.wf = true) : readsStored s s.cfg.aIrqFlags :=
  readsStored_named h 10 (by decide)

theorem reads_aRxNbBytes {s : State} (h : s.cfg.wf = true) : readsStored s s.cfg.aRxNbBytes :=
  readsStored_named h 11 (by decide)

theorem reads_aModemConfig1 {s : State} (h : s.cfg.wf = true) : readsStored s s.cfg.aModemConfig1 :=
  readsStored_named h 12 (by decide)

theorem reads_aModemConfig2 {s : State} (h : s.cfg.wf = true) : readsStored s s.cfg.aModemConfig2 :=
  readsStored_named h 13 (by decide)

theorem reads_aPreambleMsb {s : State} (h : s.cfg.wf = true) : readsStored s s.cfg.aPreambleMsb :=
  readsStored_named h 14 (by decide)

theorem reads_aPreambleLsb {s : State} (h : s.cfg.wf = true) : readsStored s s.cfg.aPreambleLsb :=
  readsStored_named h 15 (by decide)

theorem reads_aPayloadLength {s : State} (h : s.cfg.wf = true) : readsStored s s.cfg.aPayloadLength :=
  readsStored_named h 16 (by decide)

theorem reads_aModemConfig3 {s : State} (h : s.cfg.wf = true) : readsStored s s.cfg.aModemConfig3 :=
  readsStored_named h 17 (by decide)

theorem reads_aPaDac {s : State} (h : s.cfg.wf = true) : readsStored s s.cfg.aPaDac :=
  readsStored_named h 18 (by decide)

/-- The flags register is not the FIFO register. -/
theorem Config.flags_ne_fifo {c : Config} (h : c.wf = true) : c.aIrqFlags ≠ c.aFifo := Config.named_ne h 10 0 (by decide)

theorem busRead_stored {s : State} {a : Addr} (h : BusReady s) (hr : readsStored s a) :
    busRead a 1 s = .done [s.devReg a] (s.afterRead a) := by
  have hd : devRegRead a s = .done [s.devReg a] s := by
    unfold devRegRead
    rcases hr.2 with hn | hp
    · simp [hn]
    · simp [show s.cfg.unnamedReadsDraw = false from hp]
  simp [busRead, h.busFault, h.owner, h.busFails, devRead, hr.1, hd, State.closeTxn, State.log, State.afterRead,
    State.okRec]

theorem readReg_stored {s : State} {a : Addr} (h : BusReady s) (hr : readsStored s a) (k : Byte → State → Micro) :
    readReg a s k = k (s.devReg a) (s.afterRead a) := by
  simp [readReg, busRead_stored h hr, Txn.andThen]

theorem busWrite_plain {s : State} {a : Addr} (h : BusReady s) (ha : plainAddr s.cfg a) (v : Byte) :
    busWrite a [v] s = .done [] (s.afterWrite a v) := by
  simp [busWrite, h.busFault, h.owner, h.busFails, devWrite, devRegWrite, ha.1, ha.2.1, ha.2.2.1, ha.2.2.2,
    State.closeTxn, State.log, State.afterWrite, State.okRec, State.putReg]

theorem writeReg_plain {s : State} {a : Addr} (h : BusReady s) (ha : plainAddr s.cfg a) (v : Byte)
    (k : State → Micro) : writeReg a v s k = k (s.afterWrite a v) := by
  simp [writeReg, busWrite_plain h ha, Txn.andThen]

/-- A write at the flags register clears the bits written as 1 (20_memory.md R70). -/
theorem busWrite_flags {s : State} (h : BusReady s) (ha : s.cfg.aIrqFlags ≠ s.cfg.aFifo) (v : Byte) :
    busWrite s.cfg.aIrqFlags [v] s = .done [] ((s.clearFlags v).closeTxn .wr s.cfg.aIrqFlags [v]) := by
  simp [busWrite, h.busFault, h.owner, h.busFails, devWrite, devRegWrite, ha]

theorem writeReg_flags {s : State} (h : BusReady s) (ha : s.cfg.aIrqFlags ≠ s.cfg.aFifo) (v : Byte)
    (k : State → Micro) :
    writeReg s.cfg.aIrqFlags v s k = k ((s.clearFlags v).closeTxn .wr s.cfg.aIrqFlags [v]) := by
  simp [writeReg, busWrite_flags h ha, Txn.andThen]

theorem fifoRead_eq_map (size : Nat) (m : Memory) (n : Nat) :
    ∀ {p : Nat}, p < size → fifoRead size m p n = (List.range n).map (fun k => m.read ((p + k) % size)) := by
  intro p hp
  apply List.ext_getElem?
  intro k
  by_cases hk : k < n
  · rw [fifoRead_getElem? m n hp hk]; simp [hk]
  · rw [List.getElem?_eq_none (by simpa using hk), List.getElem?_eq_none (by simpa using hk)]

/-- A read at the FIFO register (20_memory.md R67). -/
theorem busRead_fifo {s : State} (h : BusReady s) (hp : s.fifoPtr < s.cfg.fifoSize) (n : Nat) :
    busRead s.cfg.aFifo n s =
      .done ((List.range n).map (fun k => s.devFifo (s.fifoCell k))) (s.afterFifoRead n) := by
  simp [busRead, h.busFault, h.owner, h.busFails, devRead, devFifoRead, hp, fifoRead_eq_map _ _ _ hp,
    fifoPtrAfter_eq _ hp, State.afterFifoRead, State.fifoCell, State.closeTxn, State.log, State.okRec,
    State.setFifoPtr, State.putReg, State.devFifo]

/-- A write at the FIFO register (20_memory.md R68). -/
theorem busWrite_fifo {s : State} (h : BusReady s) (hp : s.fifoPtr < s.cfg.fifoSize) (d : List Byte) :
    busWrite s.cfg.aFifo d s =
      .done [] ((({ s with dev := { s.dev with fifo := fifoWrite s.cfg.fifoSize s.dev.fifo s.fifoPtr d } } : State).setFifoPtr
        (s.fifoCell d.length)).closeTxn .wr s.cfg.aFifo d) := by
  simp [busWrite, h.busFault, h.owner, h.busFails, devWrite, devFifoWrite, hp, fifoPtrAfter_eq _ hp, State.fifoCell]

/-! ## What is left after a read or a write -/

@[simp] theorem State.afterRead_frame (s : State) (a : Addr) :
    (s.afterRead a).cfg = s.cfg ∧ (s.afterRead a).x = s.x ∧ (s.afterRead a).modeShadow = s.modeShadow ∧
    (s.afterRead a).host = s.host ∧ (s.afterRead a).seq = s.seq ∧ (s.afterRead a).pe = s.pe ∧
    (s.afterRead a).busFault = s.busFault ∧ (s.afterRead a).irqLatch = s.irqLatch ∧
    (s.afterRead a).irqPrev = s.irqPrev ∧ (s.afterRead a).lockOwner = s.lockOwner ∧
    (s.afterRead a).devRst = s.devRst ∧ (s.afterRead a).now = s.now ∧ (s.afterRead a).senders = s.senders ∧
    (s.afterRead a).snap = s.snap ∧ (s.afterRead a).dev = s.dev ∧ (s.afterRead a).env = s.env ∧
    (s.afterRead a).busFails = s.busFails ∧ (s.afterRead a).drawn = s.drawn ∧ (s.afterRead a).busPort = s.busPort := by
  refine ⟨?_, ?_, ?_, ?_, ?_, ?_, ?_, ?_, ?_, ?_, ?_, ?_, ?_, ?_, ?_, ?_, ?_, ?_, ?_⟩ <;> rfl

@[simp] theorem State.afterWrite_frame (s : State) (a : Addr) (v : Byte) :
    (s.afterWrite a v).cfg = s.cfg ∧ (s.afterWrite a v).x = s.x ∧ (s.afterWrite a v).modeShadow = s.modeShadow ∧
    (s.afterWrite a v).host = s.host ∧ (s.afterWrite a v).seq = s.seq ∧ (s.afterWrite a v).pe = s.pe ∧
    (s.afterWrite a v).busFault = s.busFault ∧ (s.afterWrite a v).irqLatch = s.irqLatch ∧
    (s.afterWrite a v).irqPrev = s.irqPrev ∧ (s.afterWrite a v).lockOwner = s.lockOwner ∧
    (s.afterWrite a v).devRst = s.devRst ∧ (s.afterWrite a v).now = s.now ∧ (s.afterWrite a v).senders = s.senders ∧
    (s.afterWrite a v).snap = s.snap ∧ (s.afterWrite a v).env = s.env ∧ (s.afterWrite a v).busFails = s.busFails ∧
    (s.afterWrite a v).drawn = s.drawn ∧ (s.afterWrite a v).busPort = s.busPort ∧
    (s.afterWrite a v).dev.fifo = s.dev.fifo := by
  refine ⟨?_, ?_, ?_, ?_, ?_, ?_, ?_, ?_, ?_, ?_, ?_, ?_, ?_, ?_, ?_, ?_, ?_, ?_, ?_⟩ <;> rfl

@[simp] theorem State.devReg_afterRead (s : State) (a b : Addr) : (s.afterRead a).devReg b = s.devReg b := rfl

@[simp] theorem State.devFifo_afterRead (s : State) (a : Addr) (k : Nat) : (s.afterRead a).devFifo k = s.devFifo k := rfl

@[simp] theorem State.devFifo_afterWrite (s : State) (a : Addr) (v : Byte) (k : Nat) :
    (s.afterWrite a v).devFifo k = s.devFifo k := rfl

theorem State.devReg_afterWrite (s : State) (a : Addr) (v : Byte) (b : Addr) :
    (s.afterWrite a v).devReg b = if a = b then v else s.devReg b := s.devReg_putReg a v b

@[simp] theorem State.devReg_afterWrite_same (s : State) (a : Addr) (v : Byte) : (s.afterWrite a v).devReg a = v := by
  simp [State.devReg_afterWrite]

/-! ## A transaction that fails -/

/-- Everything the claims need of a failed transaction. -/
theorem failTxn_recorded (s : State) (kind : BusKind) (a : Addr) (data : List Byte) :
    FailureRecorded s (s.failTxn kind a data) :=
  ⟨by simp [State.failTxn], ⟨_, by simp [State.failTxn, State.log]; rfl, rfl, rfl⟩, by simp [State.failTxn, State.log],
    by simp [State.failTxn, State.log]⟩

/-- A read whose transaction fails. -/
theorem busRead_fails (a : Addr) (n : Nat) (s : State) (ho : s.lockOwner ≠ .none) (hb : s.busFault = false)
    (hf : s.busFails = true) : ∃ t, busRead a n s = .failed t ∧ FailureRecorded s t :=
  ⟨_, by simp [busRead, ho, hb, hf]; rfl, failTxn_recorded ..⟩

/-- A write whose transaction fails. -/
theorem busWrite_fails (a : Addr) (d : List Byte) (s : State) (ho : s.lockOwner ≠ .none) (hb : s.busFault = false)
    (hf : s.busFails = true) : ∃ t, busWrite a d s = .failed t ∧ FailureRecorded s t :=
  ⟨_, by simp [busWrite, ho, hb, hf]; rfl, failTxn_recorded ..⟩

/-! ## How an operation ends, in the terms of the claims -/

@[simp] theorem State.unlock_finish (s : State) (res : Word32) : s.unlock.finish codeOk res = s.endedOk res := rfl

@[simp] theorem State.unlock_raiseHost (s : State) (e : Err) : s.unlock.raiseHost e = s.endedErr e := rfl

@[simp] theorem senderSent_eq (i : Sid) (code : Byte) (s : State) : senderSent i code s = s.sendEnded i code := rfl

/-- RECEIVE's errors touch `rlen` and `res` only. -/
theorem receiveOnErr_eq (e : Err) (s : State) :
    receiveOnErr e s =
      { s with host := { s.host with rlen := 0, res := if s.cfg.receiveErrorsClearRes then 0 else s.host.res } } := rfl

theorem endedErr_ended (s : State) (e : Err) : EndedByError (s.endedErr e) e.code e.info := ⟨rfl, rfl, rfl, rfl, rfl, rfl⟩

/-- A micro-step of a command's body, by how it ends. -/
theorem Envelope.exec_body (v : Envelope) (s : State) (h : s.host.pos = .e3) :
    v.exec s =
      match v.body s with
      | .cont t => .next t
      | .done r t => .next (t.endedOk r)
      | .raise e t => .next (v.onErr e (t.endedErr e))
      | .fault f => .fault f
      | .refused r => .refused r := by
  unfold Envelope.exec
  rw [h]
  rfl

end Sys2Proof.Machine
end

