-- ==== Sys2Proof/Tests/Slice0.lean ====
section
/-! SUPPORT. The model's own tests: the well-formedness smoke, words written out from 30_encoding.md, one step of each instruction against the examples of the rules and of 95_test_vectors.md, and a witness for the hypotheses of each statement. -/

namespace Sys2Proof.Tests
open Sys2Proof.Machine

/-! ## Well-formedness: each check refuses an ill-formed term -/

def good : Config := Config.testVectors

theorem smoke_good : good.wf = true := by decide
theorem smoke_addrs : ({ good with aPaDac := good.aOpmode } : Config).wf = false := by decide
theorem smoke_frf : ({ good with aFrfLsb := 0x30 } : Config).wf = false := by decide
theorem smoke_osc : ({ good with oscHz := 0 } : Config).wf = false := by decide
theorem smoke_fifoSize : ({ good with fifoSize := 257 } : Config).wf = false := by decide
theorem smoke_maxPayload : ({ good with maxPayload := 256 } : Config).wf = false := by decide
theorem smoke_recLen : ({ good with recLen := ⟨4, 255, 8, 6, 4⟩ } : Config).wf = false := by decide
theorem smoke_bounds : ({ good with retryBound := 0 } : Config).wf = false := by decide
theorem smoke_timeouts : ({ good with lockTimeoutMs := some 0x80000000 } : Config).wf = false := by decide
theorem smoke_period : ({ good with periodMs := ⟨20, 19, 100, 200, 1000⟩ } : Config).wf = false := by decide
theorem smoke_periodEnds : ({ good with periodMs := ⟨20, 50, 100, 200, 999⟩ } : Config).wf = false := by decide
theorem smoke_pktIds : ({ good with pktId := ⟨1, 2, 3, 4, 1⟩ } : Config).wf = false := by decide
theorem smoke_pktId0 : ({ good with pktId := ⟨6, 2, 3, 4, 5⟩ } : Config).wf = false := by decide
theorem smoke_paCfgMax : ({ good with paCfgMax := 0x80 } : Config).wf = false := by decide
theorem smoke_paDacMax : ({ good with paDacMax := 0x86 } : Config).wf = false := by decide

/-! ## Words, bit by bit from R100, R110 and R111 -/

/-- `op[39:32]`, then `arg[31:0]` as four bytes, the most significant first. -/
def word (op b3 b2 b1 b0 : BitVec 8) : CmdWord := op ++ b3 ++ b2 ++ b1 ++ b0

theorem test_decode_ri :
    decodeCmd (word 0x10 0 0 0 0x7F) = .ok (.rdreg 0x7F) ∧ decodeCmd (word 0x11 0 0 0x08 0x12) = .ok (.wrreg 0x12 8) ∧
    decodeCmd (word 0x12 0 0 0xFF 0x00) = .ok (.rdburst 0 255) ∧
    decodeCmd (word 0x13 0 0 0x02 0x00) = .ok (.wrburst 0 2) := by decide

theorem test_decode_setters :
    decodeCmd (word 0x20 0 0 0 9) = .ok (.setsf 9) ∧ decodeCmd (word 0x21 0 0 0 9) = .ok (.setbw 9) ∧
    decodeCmd (word 0x22 0 0 0 4) = .ok (.setcr 4) ∧ decodeCmd (word 0x23 0 0 0 1) = .ok (.setcrc 1) ∧
    decodeCmd (word 0x24 0 0 0x12 0x34) = .ok (.setpre 0x1234) ∧
    decodeCmd (word 0x25 0x36 0x89 0xCA 0xC0) = .ok (.setfreq 915000000) ∧
    decodeCmd (word 0x26 0 0 0 0xFF) = .ok (.setpwr 0xFF) := by decide

theorem test_decode_getters :
    decodeCmd (word 0x28 0 0 0 0) = .ok .getsf ∧ decodeCmd (word 0x29 0 0 0 0) = .ok .getbw ∧
    decodeCmd (word 0x2A 0 0 0 0) = .ok .getcr ∧ decodeCmd (word 0x2B 0 0 0 0) = .ok .getcrc ∧
    decodeCmd (word 0x2C 0 0 0 0) = .ok .getpre ∧ decodeCmd (word 0x2D 0 0 0 0) = .ok .getfreq := by decide

theorem test_decode_control :
    decodeCmd (word 0x30 0 0 0 7) = .ok (.setmode 7) ∧ decodeCmd (word 0x31 0 0 0 3) = .ok (.ismode 3) ∧
    decodeCmd (word 0x32 0 0 0 0) = .ok .init ∧ decodeCmd (word 0x40 0 0 0x01 0x00) = .ok (.transmit 256) ∧
    decodeCmd (word 0x41 0 0 0 0) = .ok .receive ∧ decodeCmd (word 0x50 0 0 0 0x1F) = .ok (.schstart 0x1F) := by decide

theorem test_decode_bus : decodeBus 0b10010010 = .busWr 0x12 ∧ decodeBus 0b00010010 = .busRd 0x12 := by decide

theorem test_decode_illegal :
    decodeCmd (word 0x27 0 0 0 0) = .error .unknownOpcode ∧ decodeCmd (word 0x00 0 0 0 0) = .error .unknownOpcode ∧
    decodeCmd (word 0x11 0 0 0x08 0x92) = .error .reservedBits ∧
    decodeCmd (word 0x30 0 0 0 8) = .error .reservedBits ∧ decodeCmd (word 0x32 0 0 0 1) = .error .reservedBits := by
  decide

/-! ## One step of each instruction -/

/-- The reset state with some device registers set. -/
def regs (l : List (Addr × Byte)) : State := l.foldl (fun s p => s.putReg p.1 p.2) State.reset

/-- The host inside the body of its command, at a micro-step. -/
def inBody (q : Seq) (s : State) : State :=
  { s with host := { s.host with busy := true, pos := .e3 }, lockOwner := .host, seq := q }

/-- The next state, for tests; a stop gives the state of a broken bus, which no test expects. -/
def out (r : Host.Outcome State Fault Refusal) : State :=
  match r with
  | .next t => t
  | .fault _ => { State.reset with busFault := true, host := { State.reset.host with status := 0xEE } }
  | .refused _ => { State.reset with busFault := true, host := { State.reset.host with status := 0xEE } }

/-- What the bus saw. -/
def bus (s : State) : List (BusKind × Addr × List Byte) := s.trace.map (fun r => (r.kind, r.addr, r.data))

/-- Result and status of the last command. -/
def ended (s : State) : Word32 × Byte := (s.host.res, s.host.status)

/-- R138's example. -/
theorem test_rdreg :
    let t := out (exec (.rdreg 0x01) (inBody ⟨.xTxn, .none⟩ (regs [(0x01, 0x81)])))
    ended t = (0x81, 0) ∧ bus t = [(.rd, 0x01, [0x81])] := by decide

/-- R139's example: `92 08` clears TX-done and nothing else. -/
theorem test_wrreg :
    let t := out (exec (.wrreg 0x12 0x08) (inBody ⟨.xTxn, .none⟩ (regs [(0x12, 0x48)])))
    ended t = (0, 0) ∧ bus t = [(.wr, 0x12, [0x08])] ∧ t.flags = 0x40 := by decide

/-- R140's example. -/
theorem test_rdburst :
    let s := inBody ⟨.xTxn, .none⟩ { regs [(0x0D, 0)] with dev.fifo := [(0, 1), (1, 2), (2, 3)] }
    let t := out (exec (.rdburst 0x00 3) s)
    ended t = (3, 0) ∧ bus t = [(.rd, 0x00, [1, 2, 3])] ∧ t.host.rbuf.take 3 = [1, 2, 3] ∧ t.host.rlen = 3 ∧
      t.devReg 0x0D = 3 := by decide

/-- R141's example. -/
theorem test_wrburst :
    let s := inBody ⟨.xTxn, .none⟩ { regs [(0x0D, 0)] with pe.buf := [0xAA, 0xBB, 0xCC] }
    let t := out (exec (.wrburst 0x00 2) s)
    ended t = (2, 0) ∧ bus t = [(.wr, 0x00, [0xAA, 0xBB])] ∧ t.dev.fifo = [(0, 0xAA), (1, 0xBB)] ∧ t.devReg 0x0D = 2 := by
  decide

/-- R152's example: `9E 94` after `74` was read. -/
theorem test_setsf :
    let t := out (exec (.setsf 9) (inBody ⟨.cWr, .none⟩ { State.reset with pe.tmp := 0x74 }))
    ended t = (9, 0) ∧ bus t = [(.wr, 0x1E, [0x94])] ∧ t.x.sf = some 9 := by decide

/-- R153's example. -/
theorem test_setbw :
    let t := out (exec (.setbw 200) (inBody ⟨.cWr, .none⟩ { State.reset with pe.tmp := 0x72 }))
    ended t = (9, 0) ∧ bus t = [(.wr, 0x1D, [0x92])] ∧ t.x.bw = some 9 := by decide

/-- R154's example, and its lower clamp. -/
theorem test_setcr :
    bus (out (exec (.setcr 4) (inBody ⟨.cWr, .none⟩ { State.reset with pe.tmp := 0x92 }))) = [(.wr, 0x1D, [0x98])] ∧
    (out (exec (.setcr 0) (inBody ⟨.cWr, .none⟩ State.reset))).x.cr = some 1 := by decide

/-- R155's example. -/
theorem test_setcrc :
    let t := out (exec (.setcrc 1) (inBody ⟨.cWr, .none⟩ { State.reset with pe.tmp := 0x70 }))
    ended t = (1, 0) ∧ bus t = [(.wr, 0x1E, [0x74])] ∧ t.x.crc = some 1 := by decide

/-- R156: the high byte first. -/
theorem test_setpre :
    bus (out (exec (.setpre 0x1234) (inBody ⟨.cWr, .none⟩ State.reset))) = [(.wr, 0x20, [0x12])] ∧
    bus (out (exec (.setpre 0x1234) (inBody ⟨.cW2, .none⟩ State.reset))) = [(.wr, 0x21, [0x34])] := by decide

/-- R158's example: 915 MHz at 32 MHz is E4 C0 00. -/
theorem test_setfreq :
    bus (out (exec (.setfreq 915000000) (inBody ⟨.cWr, .none⟩ State.reset))) = [(.wr, 0x06, [0xE4])] ∧
    bus (out (exec (.setfreq 915000000) (inBody ⟨.cW2, .none⟩ State.reset))) = [(.wr, 0x07, [0xC0])] := by decide

/-- R158: the last byte, and saturation from 1023999970 Hz on. -/
theorem test_setfreq_end :
    ended (out (exec (.setfreq 915000000) (inBody ⟨.cW3, .none⟩ State.reset))) = (0x00E4C000, 0) ∧
    frf 1023999970 32000000 = 0xFFFFFF ∧ frf 1023999908 32000000 = 0xFFFFFE := by decide

/-- R160's examples: the maximum pair, 10 dBm, a tie, a negative operand. -/
theorem test_setpwr :
    bus (out (exec (.setpwr 20) (inBody ⟨.cWr, .none⟩ State.reset))) = [(.wr, 0x09, [0xFF])] ∧
    bus (out (exec (.setpwr 10) (inBody ⟨.cW2, .none⟩ State.reset))) = [(.wr, 0x4D, [0x84])] ∧
    powerSetting good 18 = 17 ∧ powerSetting good 19 = 20 ∧ powerSetting good 0x80 = 2 := by decide

/-- The examples of R162 to R165. -/
theorem test_getters :
    let s := inBody ⟨.gR1, .none⟩ (regs [(0x1E, 0x94), (0x1D, 0x92)])
    ended (out (exec .getsf s)) = (9, 0) ∧ ended (out (exec .getbw s)) = (9, 0) ∧ ended (out (exec .getcr s)) = (1, 0) ∧
      ended (out (exec .getcrc s)) = (1, 0) := by decide

/-- R166's example. -/
theorem test_getpre :
    let t := out (exec .getpre (inBody ⟨.gR2, .none⟩ { regs [(0x21, 0x08)] with pe.getHi := 0x00 }))
    ended t = (8, 0) ∧ bus t = [(.rd, 0x21, [0x08])] := by decide

/-- R167's example. -/
theorem test_getfreq :
    let t := out (exec .getfreq (inBody ⟨.gR3, .none⟩ { regs [(0x08, 0x01)] with pe.getHi := 0xE4, pe.getMid := 0xC0 }))
    ended t = (915000061, 0) := by decide

/-- R192's example: the write keeps bit 7. -/
theorem test_setmode :
    bus (out (exec (.setmode 1) (inBody ⟨.mCmd, .mWr⟩ { State.reset with pe.modeByte := 0x80 }))) = [(.wr, 0x01, [0x81])] ∧
    ended (out (exec (.setmode 1) (inBody ⟨.mCmd, .mVf⟩ (regs [(0x01, 0x83)])))) = (0x83, 2) := by decide

/-- R193's example. -/
theorem test_ismode :
    ended (out (exec (.ismode 1) { State.reset with modeShadow := 1 })) = (1, 0) ∧
    ended (out (exec (.ismode 3) { State.reset with modeShadow := 1 })) = (0, 0) := by decide

/-- R195: the written byte, and a read-back with the LoRa bit clear. -/
theorem test_init :
    bus (out (exec .init (inBody ⟨.iOpw, .none⟩ State.reset))) = [(.wr, 0x01, [0x80])] ∧
    ended (out (exec .init (inBody ⟨.iOpv, .none⟩ (regs [(0x01, 0x00)])))) = (0x00, 2) := by decide

/-- Vector V1 of 95_test_vectors.md: the FIFO write is `80 01 34 12 78 56`. -/
theorem test_transmit :
    let s := inBody ⟨.tFifo, .none⟩ { regs [(0x0D, 0)] with pe.buf := [0x01, 0x34, 0x12, 0x78, 0x56], pe.len := 5 }
    bus (out (exec (.transmit 5) s)) = [(.wr, 0x00, [0x01, 0x34, 0x12, 0x78, 0x56])] := by decide

/-- R211: length 0 and 256 are InvalidPayload, before the bus-fault test. -/
theorem test_transmit_invalid :
    ended (out (exec (.transmit 0) { State.reset with busFault := true })) = (0, 3) ∧
    ended (out (exec (.transmit 256) State.reset)) = (0, 3) ∧
    (out (exec (.transmit 255) State.reset)).host.pos = .e2 none := by decide

/-- R217: the CRC path clears both flags and skips the FIFO. -/
theorem test_receive :
    (out (exec .receive (inBody ⟨.rCrc, .none⟩ { State.reset with pe.flags := 0x60 }))).seq = ⟨.rAck, .none⟩ ∧
    bus (out (exec .receive (inBody ⟨.rAck, .none⟩ { State.reset with pe.flags := 0x60 }))) = [(.wr, 0x12, [0x60])] ∧
    bus (out (exec .receive (inBody ⟨.rAck, .none⟩ { State.reset with pe.flags := 0x48 }))) = [(.wr, 0x12, [0x40])] := by
  decide

/-- R270, R272 and R215: a RECEIVE that ends with ModeVerificationFailed, under both readings (log 7). -/
theorem test_receive_mismatch :
    let s := inBody ⟨.rStby, .mVf⟩ { regs [(0x01, 0x85)] with pe.attempt := 1, host.rlen := 7 }
    let t := out (exec .receive s)
    ended t = (0x85, 2) ∧ t.host.rlen = 0 ∧ t.modeShadow = 5 ∧
      ended (out (exec .receive { s with cfg := { s.cfg with receiveErrorsClearRes := true } })) = (0, 2) := by decide

/-- R241's example. -/
theorem test_schstart :
    let t := out (exec (.schstart 0x1F) { State.reset with now := 5 })
    ended t = (0x1F, 0) ∧ t.senders.a3.phase = .sleeping ∧ t.senders.a3.nextWake = 5 := by decide

/-- R100, R101: a read and a write on the bus port. -/
theorem test_busRd :
    let s := placeBracket 0x01 (regs [(0x01, 0x81)])
    (out (step s)).busPort.inp = [0x81] ∧ bus (out (step s)) = [(.rd, 0x01, [0x81])] := by decide

theorem test_busWr :
    let s := { placeBracket 0x92 (regs [(0x12, 0x48)]) with busPort.out := [0x08] }
    (out (step s)).flags = 0x40 ∧ bus (out (step s)) = [(.wr, 0x12, [0x08])] := by decide

/-- R248's example: the next wake is 40 whatever the time is. -/
theorem test_release :
    let r : Sender := { phase := .release, nextWake := 20, lockDeadline := 0, buf := [], status := 0 }
    let t := out (senderStep .s0 false { State.reset with lockOwner := .s .s0, senders := State.reset.senders.set .s0 r, now := 999 })
    t.senders.a0.nextWake = 40 ∧ t.lockOwner = .none := by decide

/-- The first step after reset with a word in the fetch place. -/
theorem test_fetch :
    (out (step (State.reset.withFetchWord 40 0x3100000000))).host.res = 1 ∧
    (out (step (State.reset.withFetchWord 40 0xFF00000000))).host.status = 7 ∧
    decodeTableWord 40 0x3100000000 = some (.ismode 0) ∧ decodeTableWord 8 0x92 = some (.busWr 0x12) := by decide

/-! ## Witnesses: for each statement with hypotheses, concrete states that meet them, one for each clause -/

/-- The instruction answers a next state. -/
def runs (r : Host.Outcome State Fault Refusal) : Bool :=
  match r with
  | .next _ => true
  | .fault _ => false
  | .refused _ => false

theorem runs_next {r : Host.Outcome State Fault Refusal} (h : runs r = true) : ∃ t, r = .next t := by
  cases r with
  | next t => exact ⟨t, rfl⟩
  | fault _ => cases h
  | refused _ => cases h

theorem hostAt_inBody {q : Seq} {s : State} (h : s.busFault = false) (g : s.busFails = false) : HostAt (inBody q s) q :=
  ⟨rfl, rfl, rfl, h, g⟩

/-- The host in a body on the reset machine; with a script of moves; with a word accepted. -/
def at0 (m : Main) (b : Sub) : State := inBody ⟨m, b⟩ State.reset
def moved (e : Event) (s : State) : State := { s with env := [e] }
def holding (w : CmdWord) (s : State) : State := { s with host := { s.host with busy := true, cmd := w } }
def asking (d : Option Word32) (s : State) : State := { s with host := { s.host with pos := .e2 d } }
def sender0 (p : Phase) (s : State) : State := { s with senders := s.senders.set .s0 { s.senders.get .s0 with phase := p } }
def resetIrq : State := State.resetWith { good with completionMode := .irq }
def resetDraw : State := State.resetWith { good with unnamedReadsDraw := true }
def resetTimeout : State := State.resetWith { good with lockTimeoutMs := some 0x7FFFFFFF }

theorem at0_hostAt (m : Main) (b : Sub) : HostAt (at0 m b) ⟨m, b⟩ := hostAt_inBody rfl rfl
theorem reset_hostFresh : HostFresh State.reset := ⟨rfl, rfl, rfl, rfl⟩
theorem moved_next (e : Event) (s : State) (h : s.busPort.addrByte = none) : NextMove (moved e s) e [] := ⟨rfl, h⟩
theorem wf_reset : State.reset.cfg.wf = true := by decide

theorem witness_DecodeInvertsEncode : (Instr.transmit 0xFFFF).wf = true ∧ (Instr.busWr 0x7F).wf = true := by decide

theorem witness_EncodeInvertsDecode :
    decodeTableWord 40 0x50000000FF = none ∧ decodeTableWord 40 0x500000001F = some (.schstart 0x1F) ∧
    decodeTableWord 8 0xFF = some (.busWr 0x7F) := by decide

theorem witness_LegalWordsAreTheTableRows :
    ((0xFF : Byte) &&& 0x80 = 0x80) ∧ ((0x80 : Byte) &&& 0x80 = 0x80) ∧ ((0x7F : Byte) &&& 0x80 = 0x00) := by decide

theorem witness_StepRunsDecodedInstruction :
    (∃ s, NextMove s (.exec true) [] ∧ s.host.busy = true ∧ decodeCmd s.host.cmd = .ok (.ismode 7)) ∧
    ∃ s : State, s.busPort.addrByte = some 0xFF :=
  ⟨⟨moved (.exec true) (holding 0x3100000007 State.reset), moved_next _ _ rfl, rfl, rfl⟩, placeBracket 0xFF State.reset, rfl⟩

theorem witness_IllegalCommandFinishesAtOnce :
    ∃ s, NextMove s (.exec false) [] ∧ s.host.busy = true ∧ ∀ r ∈ tableRows, s.host.cmd &&& r.2 ≠ r.1 :=
  ⟨moved (.exec false) (holding 0x3000000008 State.reset), moved_next _ _ rfl, rfl,
    show ∀ r ∈ tableRows, (0x3000000008 : CmdWord) &&& r.2 ≠ r.1 by simp [tableRows]⟩

theorem witness_CommandEntersEnvelope :
    usesEnvelope (.transmit 255) = true ∧ argCheck good (.transmit 255) = none ∧ argCheck good (.transmit 1) = none ∧
    usesEnvelope .receive = true ∧ State.reset.host.pos = .e0 ∧ State.reset.busFault = false ∧
    resetTimeout.cfg.lockTimeoutMs = some 0x7FFFFFFF ∧ ({ State.reset with busFault := true } : State).busFault = true := by
  decide

theorem witness_LockTakenInOneStep :
    let s := asking (some 0x80000000) resetTimeout
    let w (o : Owner) (n : Word32) : State := { s with lockOwner := o, now := n }
    (s.lockOwner = .none ∧ s.busFault = false) ∧
    (({ s with busFault := true } : State).lockOwner = .none ∧ ({ s with busFault := true } : State).busFault = true) ∧
    ((w (.s .s0) 0x7FFFFFFF).lockOwner ≠ .none ∧ 2 ^ 31 ≤ ((w (.s .s0) 0x7FFFFFFF).now - 0x80000000).toNat) ∧
    ((w (.s .s4) 0x80000000).lockOwner ≠ .none ∧ ((w (.s .s4) 0x80000000).now - 0x80000000).toNat < 2 ^ 31) ∧
    ((w (.s .s4) 0xFFFFFFFF).now - 0x80000000).toNat < 2 ^ 31 := by decide

theorem witness_BodyKeepsOrReleasesLock :
    (∃ t, exec (.setsf 9) (at0 .cRd .none) = .next t) ∧ (∃ t, exec .getsf (at0 .gR1 .none) = .next t) ∧
    (at0 .cRd .none).host.pos = .e3 :=
  ⟨runs_next (by decide), runs_next (by decide), rfl⟩

theorem witness_RdregReturnsTheRegister :
    HostAt (at0 .xTxn .none) ⟨.xTxn, .none⟩ ∧ readsStored (at0 .xTxn .none) 0x7F ∧ readsStored (at0 .xTxn .none) 0x01 ∧
    ((0x00 : Addr) = good.aFifo ∧ (inBody ⟨.xTxn, .none⟩ (regs [(0x0D, 255)])).fifoPtr < good.fifoSize) ∧
    HostAt (inBody ⟨.xTxn, .none⟩ resetDraw) ⟨.xTxn, .none⟩ ∧ ¬ readsStored (inBody ⟨.xTxn, .none⟩ resetDraw) 0x7F :=
  ⟨at0_hostAt _ _, ⟨by decide, .inr rfl⟩, ⟨by decide, .inr rfl⟩, by decide, hostAt_inBody rfl rfl,
    fun h => h.2.elim (by decide) (fun g => by cases g)⟩

theorem witness_WrregWritesTheRegister :
    HostAt (at0 .xTxn .none) ⟨.xTxn, .none⟩ ∧ plainAddr good 0x7F ∧ plainAddr good 0x11 ∧
    ((0x12 : Addr) ≠ good.aFifo ∧ (0x12 : Addr) = good.aIrqFlags) ∧
    ((0x13 : Addr) ≠ good.aFifo ∧ (0x13 : Addr) ≠ good.aIrqFlags ∧ (0x13 : Addr) = good.aRxNbBytes) ∧
    ((0x10 : Addr) ≠ good.aFifo ∧ (0x10 : Addr) ≠ good.aIrqFlags ∧ (0x10 : Addr) = good.aFifoRxCurrent) ∧
    ((0x00 : Addr) = good.aFifo ∧ (inBody ⟨.xTxn, .none⟩ (regs [(0x0D, 255)])).fifoPtr < good.fifoSize) :=
  ⟨at0_hostAt _ _, by refine ⟨?_, ?_, ?_, ?_⟩ <;> decide, by refine ⟨?_, ?_, ?_, ?_⟩ <;> decide, by decide⟩

/-- RdburstFillsTheBuffer, WrburstStoresTheBuffer, BurstOffFifoRefused: 0, 1, 2 and 255 bytes; the pointer inside the FIFO. -/
theorem witness_Bursts :
    HostAt (at0 .xTxn .none) ⟨.xTxn, .none⟩ ∧ readsStored (at0 .xTxn .none) 0x7F ∧ plainAddr good 0x7F ∧
    (at0 .xTxn .none).pe.buf.length = 255 ∧ HostAt (inBody ⟨.xTxn, .none⟩ resetDraw) ⟨.xTxn, .none⟩ ∧
    ¬ readsStored (inBody ⟨.xTxn, .none⟩ resetDraw) 0x7F ∧
    (at0 .xTxn .none).fifoPtr < good.fifoSize ∧ (255 : Byte).toNat ≤ good.fifoSize ∧
    ((0x12 : Addr) ≠ good.aFifo ∧ (0x12 : Addr) = good.aIrqFlags) ∧
    ((0x13 : Addr) ≠ good.aFifo ∧ (0x13 : Addr) ≠ good.aIrqFlags ∧ (0x13 : Addr) = good.aRxNbBytes) ∧
    (0x7F : Addr) ≠ good.aFifo ∧ 2 ≤ (2 : Byte).toNat ∧ 2 ≤ (255 : Byte).toNat :=
  ⟨at0_hostAt _ _, ⟨by decide, .inr rfl⟩, by refine ⟨?_, ?_, ?_, ?_⟩ <;> decide, List.length_replicate,
    hostAt_inBody rfl rfl, fun h => h.2.elim (by decide) (fun g => by cases g), by decide⟩

theorem witness_BusTransactionsComplete :
    let s := placeBracket 0x00 State.reset
    s.lockOwner ≠ .none ∧ s.busFault = false ∧ s.busFails = false ∧ s.busPort.want = 1 ∧ s.busPort.out = [0] ∧
    readsStored s 0x7F ∧ plainAddr s.cfg 0x7F ∧ s.fifoPtr < s.cfg.fifoSize ∧ s.busPort.out.length ≤ s.cfg.fifoSize ∧
    ((placeBracket 0x7F resetDraw).busPort.want = 1 ∧ (0x7F : Addr) ≠ good.aFifo ∧
      ¬ readsStored (placeBracket 0x7F resetDraw) 0x7F) ∧
    ((0x12 : Addr) ≠ good.aFifo ∧ (0x12 : Addr) = good.aIrqFlags) ∧
    ((0x10 : Addr) ≠ good.aFifo ∧ (0x10 : Addr) ≠ good.aIrqFlags ∧ (0x10 : Addr) = good.aFifoRxCurrent) :=
  ⟨by decide, rfl, rfl, rfl, rfl, ⟨by decide, .inr rfl⟩, by refine ⟨?_, ?_, ?_, ?_⟩ <;> decide, by decide, by decide,
    ⟨rfl, by decide, fun h => h.2.elim (by decide) (fun g => by cases g)⟩, by decide⟩

/-- BurstOffFifoRefused and BusTransactionsComplete: brackets of two bytes, of 255, and of none. -/
theorem witness_BusBrackets :
    let s (n : Nat) : State := { placeBracket 0x7F State.reset with
      busPort := { addrByte := none, out := List.replicate n 0, want := BitVec.ofNat 8 n, inp := [] } }
    (s 2).lockOwner ≠ .none ∧ (s 2).busFault = false ∧ (s 2).busFails = false ∧ (0x7F : Addr) ≠ (s 2).cfg.aFifo ∧
    2 ≤ (s 2).busPort.want.toNat ∧ 2 ≤ (s 2).busPort.out.length ∧ 2 ≤ (s 255).busPort.want.toNat ∧
    (s 0).busPort.want = 0 ∧ (s 0).busPort.out = [] := by decide

/-- FieldSettersReadModifyWrite, WideSettersWriteBytesInOrder, SetpwrWritesThePair: each micro-step, and both outcomes of SETPWR. -/
theorem witness_Setters :
    State.reset.cfg.wf = true ∧ HostAt (at0 .cRd .none) ⟨.cRd, .none⟩ ∧ HostAt (at0 .cWr .none) ⟨.cWr, .none⟩ ∧
    HostAt (at0 .cW2 .none) ⟨.cW2, .none⟩ ∧ HostAt (at0 .cW3 .none) ⟨.cW3, .none⟩ ∧
    powerSetting good 19 = good.pwrMaxDbm ∧ powerSetting good 18 ≠ good.pwrMaxDbm :=
  ⟨wf_reset, at0_hostAt _ _, at0_hostAt _ _, at0_hostAt _ _, at0_hostAt _ _, by decide⟩

theorem witness_OperandsClampToNearestValid :
    ((2 : Int) ≤ 17 ∧ (17 : Int) ≤ 17) ∧ nearestPower 18 20 = 17 ∧ nearestPower 19 20 = 20 ∧
    (18 - nearestPower 18 19).natAbs = ((18 : Int) - 19).natAbs := by decide

theorem witness_FrequencyRegisterIsNearest :
    (1023999908 * 2 ^ 20 + 32000000 < 2 * 32000000 * (2 ^ 24 - 1)) ∧
    (2 * 32000000 * (2 ^ 24 - 1) ≤ 1023999970 * 2 ^ 20 + 32000000) ∧ 0 < 32000000 := by decide

theorem witness_FrequencyRoundTrip :
    0 < 32000000 ∧ 32000000 < 2 ^ 27 ∧ (1023999969 : Word32).toNat * 2 ^ 20 + 32000000 < 2 * 32000000 * 2 ^ 24 ∧
    2 ^ 19 < 32000000 := by decide

/-- PowerPairMatched, SetterThenGetter, SetmodeThenIsmode, InitBringsTheDeviceUp: commands run alone from acceptance. -/
theorem witness_CommandsRunAlone :
    State.reset.cfg.wf = true ∧ HostFresh State.reset ∧ good.paDacDefault ≠ good.paDacMax :=
  ⟨wf_reset, reset_hostFresh, by decide⟩

theorem witness_GettersReturnDeviceFields :
    State.reset.cfg.wf = true ∧ HostAt (at0 .gR1 .none) ⟨.gR1, .none⟩ ∧ HostAt (at0 .gR2 .none) ⟨.gR2, .none⟩ ∧
    HostAt (at0 .gR3 .none) ⟨.gR3, .none⟩ :=
  ⟨wf_reset, at0_hostAt _ _, at0_hostAt _ _, at0_hostAt _ _⟩

/-- The reset device stands in Standby (register 0x01 holds 0x09): SETMODE's read-back shows 1. -/
theorem witness_SetmodeVerifiesTheWrite :
    State.reset.cfg.wf = true ∧ HostAt (at0 .mCmd .mRd) ⟨.mCmd, .mRd⟩ ∧ HostAt (at0 .mCmd .mWr) ⟨.mCmd, .mWr⟩ ∧
    HostAt (at0 .mCmd .mVf) ⟨.mCmd, .mVf⟩ ∧ (at0 .mCmd .mVf).devMode = 1 :=
  ⟨wf_reset, at0_hostAt _ _, at0_hostAt _ _, at0_hostAt _ _, by decide⟩

theorem witness_ReadBackMismatchFails :
    State.reset.cfg.wf = true ∧ HostAt (at0 .mCmd .mVf) ⟨.mCmd, .mVf⟩ ∧ (at0 .mCmd .mVf).devMode ≠ 3 ∧
    HostAt (at0 .iOpv .none) ⟨.iOpv, .none⟩ ∧ (at0 .iOpv .none).devReg good.aOpmode &&& 0x8F ≠ 0x80 ||| (if good.lowFreqMode then 0x08 else 0x00) :=
  ⟨wf_reset, at0_hostAt _ _, by decide, at0_hostAt _ _, by decide⟩

/-- One attempt allowed: before the first count the mismatch is retried, after it the command ends. -/
theorem witness_ModeRetryIsBounded :
    let s := inBody ⟨.tMode, .mVf⟩ { State.reset with pe.attempt := 1 }
    HostAt (at0 .rMode .mVf) ⟨.rMode, .mVf⟩ ∧ (at0 .rMode .mVf).devMode ≠ 5 ∧
    (at0 .rMode .mVf).pe.attempt.toNat < good.modeAttempts.toNat ∧
    HostAt s ⟨.tMode, .mVf⟩ ∧ s.devMode ≠ 3 ∧ good.modeAttempts.toNat ≤ s.pe.attempt.toNat ∧ s.cfg.wf = true :=
  ⟨at0_hostAt _ _, by decide, by decide, hostAt_inBody rfl rfl, by decide⟩

theorem witness_CommandsEndInStandby :
    State.reset.cfg.wf = true ∧ (at0 .iStby .mVf).devMode = 1 ∧ HostAt (at0 .iStby .mVf) ⟨.iStby, .mVf⟩ ∧
    HostAt (at0 .tStby .mVf) ⟨.tStby, .mVf⟩ ∧ HostAt (at0 .rStby .mVf) ⟨.rStby, .mVf⟩ ∧
    (at0 .rStby .mVf).pe.flags &&& 0x20 = 0 :=
  ⟨wf_reset, by decide, at0_hostAt _ _, at0_hostAt _ _, at0_hostAt _ _, by decide⟩

theorem witness_InvalidPayloadRejectedFirst :
    State.reset.host.pos = .e0 ∧ (0 : BitVec 16).toNat = 0 ∧ State.reset.cfg.maxPayload < (256 : BitVec 16).toNat := by decide

/-- TransmitDelivers, ReceiveDelivers, CrcErrorDiscardsThePacket: the ends of the ranges of length, address and packet;
the shadow at Standby and, as right after reset, elsewhere. -/
theorem witness_TransmitAndReceive :
    let s : State := { State.reset with modeShadow := 1 }
    s.cfg.wf = true ∧ HostFresh s ∧ HostFresh State.reset ∧ s.cfg.completionMode = .poll ∧ s.modeShadow = 1 ∧
    State.reset.modeShadow ≠ 1 ∧ s.host.hbuf.length = 255 ∧
    s.host.rbuf.length = 255 ∧ s.pe.buf.length = 255 ∧ s.flags &&& 0x20 = 0 ∧
    1 ≤ (1 : BitVec 16).toNat ∧ (255 : BitVec 16).toNat ≤ s.cfg.maxPayload ∧
    (s.devReg s.cfg.aFifoTxBase).toNat < s.cfg.fifoSize ∧ (0xFF : Byte).toNat < s.cfg.fifoSize ∧
    (List.replicate 255 (0 : Byte)).length ≤ 255 ∧ (List.replicate 255 (0 : Byte)).length ≤ s.cfg.fifoSize :=
  ⟨wf_reset, ⟨rfl, rfl, rfl, rfl⟩, reset_hostFresh, rfl, rfl, by decide, List.length_replicate, List.length_replicate, List.length_replicate, by decide,
    by decide, by decide, by decide, by decide, by decide +kernel⟩

theorem witness_PollTimesOutExactly :
    State.reset.cfg.wf = true ∧ State.reset.cfg.completionMode = .poll ∧ HostAt (at0 .tWait .none) ⟨.tWait, .none⟩ ∧
    HostAt (at0 .rWait .none) ⟨.rWait, .none⟩ ∧ (at0 .tWait .none).pe.cnt = 0 ∧ (at0 .tWait .none).flags &&& 0x08 = 0 ∧
    (at0 .rWait .none).flags &&& 0x40 = 0 :=
  ⟨wf_reset, rfl, at0_hostAt _ _, at0_hostAt _ _, by decide⟩

/-- A state with a flag and the latch set, in a wait or a mode step. -/
def waiting (w : Main) (latch : Bool) (f : Byte) (deadline : Word32) : State :=
  inBody ⟨w, .none⟩ { resetIrq.putReg 0x12 f with irqLatch := latch, pe := { resetIrq.pe with deadline := deadline } }

theorem witness_InterruptWait :
    let a := inBody ⟨.tMode, .mVf⟩ (resetIrq.putReg 0x01 0x83)
    let b := inBody ⟨.rMode, .mVf⟩ (State.reset.putReg 0x01 0x85)
    resetIrq.cfg.wf = true ∧ resetIrq.cfg.completionMode = .irq ∧
    HostAt (at0 .tClr .none) ⟨.tClr, .none⟩ ∧ HostAt (at0 .rMode .none) ⟨.rMode, .none⟩ ∧
    (HostAt a ⟨.tMode, .mVf⟩ ∧ a.devMode = 3) ∧ (HostAt b ⟨.rMode, .mVf⟩ ∧ b.devMode = 5) :=
  ⟨by decide, rfl, at0_hostAt _ _, at0_hostAt _ _, ⟨hostAt_inBody rfl rfl, by decide⟩, hostAt_inBody rfl rfl, by decide⟩

theorem witness_InterruptWait_outcomes :
    HostAt (waiting .tWait true 0x08 0) ⟨.tWait, .none⟩ ∧ HostAt (waiting .rWait false 0 0) ⟨.rWait, .none⟩ ∧
    (waiting .tWait true 0x08 0).cfg.wf = true ∧ (waiting .tWait true 0x08 0).cfg.completionMode = .irq ∧
    (waiting .tWait true 0x08 0).flags &&& 0x08 ≠ 0 ∧ (waiting .tWait true 0x40 0).flags &&& 0x08 = 0 ∧
    (waiting .rWait true 0x40 0).flags &&& 0x40 ≠ 0 ∧ (waiting .rWait true 0x08 0).flags &&& 0x40 = 0 ∧
    (waiting .rWait true 0 0).irqLatch = true ∧ (waiting .rWait false 0 0).irqLatch = false ∧
    ((waiting .rWait false 0 0).now - (waiting .rWait false 0 0).pe.deadline).toNat < 2 ^ 31 ∧
    2 ^ 31 ≤ ((waiting .tWait false 0 1).now - (waiting .tWait false 0 1).pe.deadline).toNat :=
  ⟨⟨rfl, rfl, rfl, rfl, rfl⟩, ⟨rfl, rfl, rfl, rfl, rfl⟩, by decide⟩

theorem witness_SchstartStartsSenders :
    ((0x1F : BitVec 5).getLsbD Sid.s4.toNat = true ∧ (State.reset.senders.get .s4).phase = .off) ∧
    ¬((0x0F : BitVec 5).getLsbD Sid.s4.toNat = true ∧ (State.reset.senders.get .s4).phase = .off) := by decide

theorem witness_SenderWakes :
    let s (n : Word32) := { sender0 .sleeping State.reset with now := n }
    ((s 0).senders.get .s0).phase = .sleeping ∧ ((s 0).now - ((s 0).senders.get .s0).nextWake).toNat < 2 ^ 31 ∧
    ((s 0x7FFFFFFF).now - ((s 0x7FFFFFFF).senders.get .s0).nextWake).toNat < 2 ^ 31 ∧
    2 ^ 31 ≤ ((s 0x80000000).now - ((s 0x80000000).senders.get .s0).nextWake).toNat := by decide

theorem witness_SenderAcquiresOrSkips :
    let s := sender0 .waitlock State.reset
    let f := sender0 .waitlock resetTimeout
    (s.senders.get .s0).phase = .waitlock ∧ s.lockOwner = .none ∧ s.cfg.lockTimeoutMs = none ∧
    (f.cfg.lockTimeoutMs ≠ none ∧ (f.now - (f.senders.get .s0).lockDeadline).toNat < 2 ^ 31) ∧
    ({ f with lockOwner := .host } : State).lockOwner ≠ .none ∧
    ¬(({ f with now := 0x80000000 } : State).now - (f.senders.get .s0).lockDeadline).toNat < 2 ^ 31 := by decide

/-- SenderCopiesItsRecord, SenderSends, SenderReleases. -/
theorem witness_SenderCopiesSendsReleases :
    ((sender0 .copy State.reset).senders.get .s0).phase = .copy ∧
    ((sender0 .release State.reset).senders.get .s0).phase = .release ∧
    ((sender0 .sending State.reset).senders.get .s0).phase = .sending ∧ (at0 .tEns .none).host.pos = .e3 ∧
    ¬ (({ sender0 .sending State.reset with seq := ⟨.tEns, .none⟩ } : State).seq = ⟨.tEns, .none⟩ ∧
      ({ sender0 .sending State.reset with seq := ⟨.tEns, .none⟩ } : State).busFault = true) ∧
    (∃ t, senderStep .s0 false { sender0 .sending State.reset with seq := ⟨.tEns, .none⟩, lockOwner := .s .s0 } = .next t) ∧
    ({ sender0 .sending State.reset with seq := ⟨.tEns, .none⟩, busFault := true } : State).busFault = true :=
  ⟨rfl, rfl, rfl, rfl, by decide, runs_next (by decide), rfl⟩

theorem witness_TimeReachedHalfRange :
    timeReached (0xFFFFFFFF + 0x7FFFFFFF) 0xFFFFFFFF = true ∧ timeReached (0xFFFFFFFF + 0x80000000) 0xFFFFFFFF = false ∧
    timeReached (5 + BitVec.ofNat 32 (2 ^ 32 - 1)) 5 = false := by decide

/-- TxDoneEvent, RxDoneEvent: enabled in modes 3, 5 and 6, and not in Standby. -/
theorem witness_DeviceEvents :
    State.reset.cfg.wf = true ∧ (regs [(0x01, 0x83)]).devMode = 3 ∧ (regs [(0x01, 0x85)]).devMode = 5 ∧
    (regs [(0x01, 0x86)]).devMode = 6 ∧ State.reset.devMode ≠ 3 ∧ State.reset.devMode ≠ 5 ∧ State.reset.devMode ≠ 6 ∧
    (List.replicate 255 (0 : Byte)).length ≤ 255 ∧ (List.replicate 255 (0 : Byte)).length ≤ good.fifoSize := by
  decide +kernel

/-- InterruptEdges: values that change the register and one that does not; a whole step with a rising edge. -/
theorem witness_InterruptEdges :
    let s := moved .devTxDone (regs [(0x01, 0x83)])
    (0x08 : Byte) ≠ State.reset.flags ∧ (0 : Byte) = State.reset.flags ∧ s.cfg.wf = true ∧ NextMove s .devTxDone [] ∧
    isRst .devTxDone = false ∧ (∃ t, step s = .next t) ∧
    ((out (step s)).flags ≠ s.flags ∧ (out (step s)).flags &&& 0x48 ≠ 0 ∧ s.irqPrev = false ∧ s.seq ≠ ⟨.tClr, .none⟩) :=
  ⟨by decide, by decide, by decide, ⟨rfl, rfl⟩, rfl, runs_next (by decide), by decide⟩

theorem witness_SnapWriteReplacesOneRecord :
    NextMove (moved (.snapWrite .s4 [1, 2, 3, 4]) State.reset) (.snapWrite .s4 [1, 2, 3, 4]) [] ∧
    ([1, 2, 3, 4] : List Byte).length = State.reset.cfg.recLen.get .s4 :=
  ⟨moved_next _ _ rfl, rfl⟩

/-- ClockTicks at the wrap, BlockResetRestoresTheBlock. -/
theorem witness_ClockTicksAndBlockReset :
    NextMove (moved .tick { State.reset with now := 0xFFFFFFFF }) .tick [] ∧ NextMove (moved .rst State.reset) .rst [] :=
  ⟨moved_next _ _ rfl, moved_next _ _ rfl⟩

theorem witness_FrameOfTheDevice :
    State.reset.cfg.wf = true ∧
    HostAt (at0 .cWr .none) ⟨.cWr, .none⟩ ∧ (∃ t, exec (.setsf 9) (at0 .cWr .none) = .next t) ∧
    HostAt (at0 .xTxn .none) ⟨.xTxn, .none⟩ ∧ (∃ t, exec (.wrburst 0 2) (at0 .xTxn .none) = .next t) :=
  ⟨wf_reset, at0_hostAt _ _, runs_next (by decide), at0_hostAt _ _, runs_next (by decide)⟩

theorem witness_FrameOfTheBlock :
    ((at0 .xTxn .none).host.pos = .e3 ∧ ∃ t, exec (.rdreg 1) (at0 .xTxn .none) = .next t) ∧
    (State.reset.host.pos ≠ .e3 ∧ ∃ t, exec .init State.reset = .next t) ∧
    (∃ t, exec (.ismode 1) State.reset = .next t) ∧ ∃ t, exec (.schstart 1) State.reset = .next t :=
  ⟨⟨rfl, runs_next (by decide)⟩, ⟨by decide, runs_next (by decide)⟩, runs_next (by decide), runs_next (by decide)⟩

/-- EveryElementHasItsWriters: the host writes the last byte of `hbuf` on a free port, and on a busy one. -/
theorem witness_HbufWrite :
    let s := moved (.hbufWrite 254 [7]) State.reset
    let b := moved (.hbufWrite 254 [7]) (holding 0x3100000001 State.reset)
    (NextMove s (.hbufWrite 254 [7]) [] ∧ (∃ t, step s = .next t) ∧ s.host.busy = false ∧ s.host.hbuf.length = 255 ∧
      (254 : Byte).toNat + [(7 : Byte)].length ≤ 255) ∧
    (NextMove b (.hbufWrite 254 [7]) [] ∧ b.host.busy = true ∧ ∃ t, step b = .next t) :=
  ⟨⟨moved_next _ _ rfl, ⟨_, rfl⟩, rfl, List.length_replicate, by decide⟩, moved_next _ _ rfl, rfl, ⟨_, rfl⟩⟩

theorem witness_EveryElementHasItsWriters :
    (NextMove (moved (.present 0x3100000001) State.reset) (.present 0x3100000001) [] ∧
      ∃ t, step (moved (.present 0x3100000001) State.reset) = .next t) ∧
    (NextMove (moved .devTxDone State.reset) .devTxDone [] ∧ ∃ t, step (moved .devTxDone State.reset) = .next t) ∧
    isRst .devTxDone = false ∧ movesDevice good (.devFlag 0) = false ∧
    (let s := moved (.exec false) (holding 0x3100000001 State.reset)
     NextMove s (.exec false) [] ∧ s.cmdIs isSchstart = false ∧ s.cmdIs writesTuple = false ∧ ∃ t, step s = .next t) ∧
    (let s := moved (.sender .s0 false false) (sender0 .sleeping State.reset)
     NextMove s (.sender .s0 false false) [] ∧ ∃ t, step s = .next t) :=
  ⟨⟨moved_next _ _ rfl, runs_next (by decide)⟩, ⟨moved_next _ _ rfl, runs_next (by decide)⟩, rfl, rfl,
    ⟨moved_next _ _ rfl, by decide, by decide, runs_next (by decide)⟩, moved_next _ _ rfl, runs_next (by decide)⟩

/-- A read that fails, on a bus that had not faulted. -/
def failing (q : Seq) : State := { inBody q State.reset with busFails := true }

/-- A sender at a micro-step of SEND whose transaction fails. -/
def failingSender (q : Seq) : State :=
  { sender0 .sending State.reset with seq := q, lockOwner := .s .s0, busFails := true }

/-- Does the outcome have this log? -/
def logIs (r : Host.Outcome State Fault Refusal) (n : Nat) : Bool :=
  match r with
  | .next t => t.trace.length == n
  | .fault _ => false
  | .refused _ => false

theorem logIs_ne {r : Host.Outcome State Fault Refusal} {n : Nat} {l : List TraceRec} (h : logIs r n = true)
    (g : n ≠ l.length) : ∀ u, r = .next u → u.trace ≠ l := by
  rintro u rfl e
  exact g ((beq_iff_eq.1 h).symm.trans (congrArg List.length e))

theorem logIs_zero {r : Host.Outcome State Fault Refusal} (h : logIs r 0 = true) : ∃ u, r = .next u ∧ u.trace = [] := by
  cases r with
  | next t => exact ⟨t, rfl, List.length_eq_zero_iff.1 (beq_iff_eq.1 h)⟩
  | fault _ => cases h
  | refused _ => cases h

/-- FailedTransactionEndsTheCommand: a host micro-step without a transaction (R_CRC) and one with (RDREG). -/
theorem witness_FailedTransactionEndsTheCommand :
    let a := failing ⟨.rCrc, .none⟩
    let b := failing ⟨.xTxn, .none⟩
    (a.host.pos = .e3 ∧ a.lockOwner = .host ∧ a.busFault = false ∧ a.busFails = true ∧
      (∃ t, exec .receive a = .next t) ∧ ∃ u, exec .receive { a with busFails := false } = .next u ∧ u.trace = []) ∧
    ((∃ t, exec (.rdreg 1) b = .next t) ∧
      ∀ u, exec (.rdreg 1) { b with busFails := false } = .next u → u.trace ≠ b.trace) :=
  ⟨⟨rfl, rfl, rfl, rfl, runs_next (by decide), logIs_zero (by decide)⟩, ⟨_, rfl⟩,
    logIs_ne (n := 1) (by decide) (by decide)⟩

/-- The same of a sender, at T_ENS and at T_BASE, and of the bus port. -/
theorem witness_FailedTransactionOfOthers :
    let a := failingSender ⟨.tEns, .none⟩
    let b := failingSender ⟨.tBase, .none⟩
    let p := { placeBracket 0x7F State.reset with busFails := true }
    ((a.senders.get .s0).phase = .sending ∧ a.lockOwner = .s .s0 ∧ a.busFault = false ∧ a.busFails = true ∧
      (∃ t, senderStep .s0 false a = .next t) ∧
      ∃ u, senderStep .s0 false { a with busFails := false } = .next u ∧ u.trace = []) ∧
    ((∃ t, senderStep .s0 false b = .next t) ∧
      ∀ u, senderStep .s0 false { b with busFails := false } = .next u → u.trace ≠ b.trace) ∧
    (p.lockOwner ≠ .none ∧ p.busFault = false ∧ p.busFails = true ∧ p.busPort.want ≠ 0 ∧ p.busPort.out ≠ []) :=
  ⟨⟨rfl, rfl, rfl, rfl, runs_next (by decide), logIs_zero (by decide)⟩,
    ⟨⟨_, rfl⟩, logIs_ne (n := 1) (by decide) (by decide)⟩, by decide⟩

theorem witness_BusFaultIsFinal :
    let s := { sender0 .sending State.reset with
      seq := ⟨.tEns, .none⟩, busFault := true, lockOwner := .s .s0, env := [.sender .s0 false false] }
    NextMove s (.sender .s0 false false) [] ∧ s.busFault = true ∧ (s.senders.get .s0).phase = .sending ∧
    ∃ t, step s = .next t :=
  ⟨⟨rfl, rfl⟩, rfl, rfl, runs_next (by decide)⟩

theorem witness_TraceGrowsByTheLockHolder :
    let s := moved (.exec false) { at0 .xTxn .none with host.busy := true, host.cmd := 0x1000000001 }
    NextMove s (.exec false) [] ∧ ∃ t, step s = .next t :=
  ⟨⟨rfl, rfl⟩, runs_next (by decide)⟩

/-- The host inside the body of a command word, as a run reaches it, with the executor's move next. -/
def running (w : CmdWord) : State :=
  { at0 .xTxn .none with host := { (at0 .xTxn .none).host with busy := true, cmd := w }, env := [.exec false] }

theorem running_safe (w : CmdWord) (h : (running w).cmdIs (fun i => bodySeq i ⟨.xTxn, .none⟩) = true)
    (g : (running w).cmdIs (fun i => usesEnvelope i && (argCheck good i).isNone) = true) : Safe (running w) where
  config := wf_reset
  memory := ⟨show powerOnRegs.wf = true by decide, show powerOnRegs.inside 128 = true by decide, rfl, rfl⟩
  buffers :=
    { hbuf := List.length_replicate, rbuf := List.length_replicate, peBuf := List.length_replicate
      sBuf := fun i => by cases i <;> rfl
      snap := fun i => by cases i <;> rfl }
  lock :=
    { host := ⟨fun _ => rfl, fun _ => rfl⟩
      sender := fun i => by cases i <;> exact ⟨(fun e => by cases e), (fun e => by cases e)⟩
      idle := fun e => by cases e
      sending := fun _ e => by cases e
      body := fun _ => h
      command := fun _ => ⟨rfl, g⟩
      payload := fun e => by cases e }
  lines := ⟨fun _ => rfl, rfl, rfl⟩

/-- StepKeepsSafe and both branches of SafeStatesGoOn. -/
theorem witness_StepKeepsSafe :
    Safe (running 0x1000000001) ∧ (∃ t, step (running 0x1000000001) = .next t) ∧ good.fifoSize = 256 ∧
    Safe (running 0x1200000201) ∧ step (running 0x1200000201) = .refused .burstOffFifo :=
  ⟨running_safe _ (by decide) (by decide), runs_next (by decide), rfl, running_safe _ (by decide) (by decide), rfl⟩

theorem witness_StepKeepsBounds :
    let s := moved (.exec false) { at0 .tWait .none with host.busy := true, host.cmd := 0x4000000001, pe.cnt := 2 }
    s.cfg.wf = true ∧ PollBounded s ∧ AttemptsBounded s ∧ ∃ t, step s = .next t :=
  ⟨by decide, fun _ _ => by decide, fun h => absurd h (by decide), runs_next (by decide)⟩

end Sys2Proof.Tests
end

section
namespace Sys2Proof.Machine

/-! What a micro-step of a bus master can do: block-side work, at most one transaction, block-side work. -/

/-! ## The parts of the block an operation may write -/

/-- What an operation may write of the elements that only some operations write: the tuple `x`, the shadow, and the
receive side of the port (`rbuf`, `rlen`). -/
structure Writes where
  tuple : Bool
  shadow : Bool
  delivery : Bool

/-- An operation that changes the device mode and nothing else of them: `pe_transmit`, SETMODE. -/
def Writes.onlyShadow : Writes := ⟨false, true, false⟩

/-- Block-side work inside a micro-step, without a transaction. -/
structure Quiet (w : Writes) (s t : State) : Prop where
  cfg : t.cfg = s.cfg
  senders : t.senders = s.senders
  snap : t.snap = s.snap
  now : t.now = s.now
  env : t.env = s.env
  busFails : t.busFails = s.busFails
  busPort : t.busPort = s.busPort
  lockOwner : t.lockOwner = s.lockOwner
  busFault : t.busFault = s.busFault
  trace : t.trace = s.trace
  cmd : t.host.cmd = s.host.cmd
  hbuf : t.host.hbuf = s.host.hbuf
  devRst : t.devRst = s.devRst ∨ t.devRst = false
  x : w.tuple = false → t.x = s.x
  modeShadow : w.shadow = false → t.modeShadow = s.modeShadow
  host : w.delivery = false → t.host = s.host

theorem Quiet.rfl' (w : Writes) (s : State) : Quiet w s s :=
  ⟨rfl, rfl, rfl, rfl, rfl, rfl, rfl, rfl, rfl, rfl, rfl, rfl, .inl rfl, fun _ => rfl, fun _ => rfl, fun _ => rfl⟩

theorem Quiet.trans {w : Writes} {s t u : State} (h : Quiet w s t) (g : Quiet w t u) : Quiet w s u where
  cfg := g.cfg.trans h.cfg
  senders := g.senders.trans h.senders
  snap := g.snap.trans h.snap
  now := g.now.trans h.now
  env := g.env.trans h.env
  busFails := g.busFails.trans h.busFails
  busPort := g.busPort.trans h.busPort
  lockOwner := g.lockOwner.trans h.lockOwner
  busFault := g.busFault.trans h.busFault
  trace := g.trace.trans h.trace
  cmd := g.cmd.trans h.cmd
  hbuf := g.hbuf.trans h.hbuf
  devRst := g.devRst.elim (fun e => h.devRst.imp e.trans e.trans) .inr
  x := fun e => (g.x e).trans (h.x e)
  modeShadow := fun e => (g.modeShadow e).trans (h.modeShadow e)
  host := fun e => (g.host e).trans (h.host e)

/-- The sequencer, its working registers and the interrupt latch are free to every operation. -/
theorem Quiet.registers (w : Writes) (s : State) (l : Bool) (p : PeRegs) (q : Seq) :
    Quiet w s { s with irqLatch := l, pe := p, seq := q } :=
  ⟨rfl, rfl, rfl, rfl, rfl, rfl, rfl, rfl, rfl, rfl, rfl, rfl, .inl rfl, fun _ => rfl, fun _ => rfl, fun _ => rfl⟩

theorem Quiet.goto (w : Writes) (s : State) (m : Main) : Quiet w s (s.goto m) := .registers ..

theorem Quiet.armWait (w : Writes) (s : State) (m : Main) : Quiet w s (s.armWait m) := by
  unfold State.armWait
  split
  · exact .registers ..
  · exact .registers ..

theorem Quiet.setShadow {w : Writes} (hw : w.shadow = true) (s : State) (m : ModeCode) (q : Seq) :
    Quiet w s { s with modeShadow := m, seq := q } :=
  ⟨rfl, rfl, rfl, rfl, rfl, rfl, rfl, rfl, rfl, rfl, rfl, rfl, .inl rfl, fun _ => rfl, by simp [hw], fun _ => rfl⟩

theorem Quiet.setTuple {w : Writes} (hw : w.tuple = true) (s : State) (x : ModemTuple) : Quiet w s { s with x := x } :=
  ⟨rfl, rfl, rfl, rfl, rfl, rfl, rfl, rfl, rfl, rfl, rfl, rfl, .inl rfl, by simp [hw], fun _ => rfl, fun _ => rfl⟩

theorem Quiet.setDelivery {w : Writes} (hw : w.delivery = true) (s : State) (b : List Byte) (n : Byte) :
    Quiet w s { s with host := { s.host with rbuf := b, rlen := n } } :=
  ⟨rfl, rfl, rfl, rfl, rfl, rfl, rfl, rfl, rfl, rfl, rfl, rfl, .inl rfl, fun _ => rfl, fun _ => rfl, by simp [hw]⟩

theorem Quiet.initPulse {w : Writes} (hw : w.tuple = true) (s : State) : Quiet w s s.initPulse := by
  constructor <;> simp [hw]

/-! ## Micro-steps -/

/-- What a step does to the fault bit and the log: the bit is final, nothing is recorded while it is set, and the log
takes at most one record, tagged with the holder of the lock. -/
structure LogEffect (s t : State) : Prop where
  faulted : s.busFault = true → t.busFault = true ∧ t.trace = s.trace
  trace : t.trace = s.trace ∨ (s.lockOwner ≠ .none ∧ ∃ r : TraceRec, t.trace = s.trace ++ [r] ∧ r.owner = s.lockOwner)

/-- What every step of a bus master does, whatever it runs. -/
structure MasterEffect (s t : State) : Prop extends LogEffect s t where
  cfg : t.cfg = s.cfg
  snap : t.snap = s.snap
  now : t.now = s.now
  env : t.env = s.env
  devRst : t.devRst = s.devRst ∨ t.devRst = false
  healthy : s.busFails = false → t.busFault = s.busFault

/-- What one micro-step of an operation can do. -/
structure MicroEffect (w : Writes) (s t : State) : Prop extends MasterEffect s t where
  senders : t.senders = s.senders
  busPort : t.busPort = s.busPort
  cmd : t.host.cmd = s.host.cmd
  hbuf : t.host.hbuf = s.host.hbuf
  x : w.tuple = false → t.x = s.x
  modeShadow : w.shadow = false → t.modeShadow = s.modeShadow
  host : w.delivery = false → t.host = s.host

/-- A transaction between two stretches of block-side work. -/
theorem MicroEffect.of_txn {w : Writes} {s u v t : State} (h : Quiet w s u) (k : TxnEffect u v) (g : Quiet w v t) :
    MicroEffect w s t where
  cfg := by rw [g.cfg, k.cfg, h.cfg]
  snap := by rw [g.snap, k.snap, h.snap]
  now := by rw [g.now, k.now, h.now]
  env := by rw [g.env, k.env, h.env]
  devRst := by
    have hk : v.devRst = u.devRst := k.devRst
    exact g.devRst.elim (fun e => h.devRst.imp (e.trans hk).trans (e.trans hk).trans) .inr
  faulted := fun hf => by
    have hv : v = u := k.sticky (h.busFault.trans hf)
    rw [g.busFault, g.trace, hv]
    exact ⟨h.busFault.trans hf, h.trace⟩
  healthy := fun hf => by rw [g.busFault, k.healthy (h.busFails.trans hf), h.busFault]
  trace := by
    rw [g.trace, ← h.trace, ← h.lockOwner]
    exact k.trace.imp_right fun ⟨hr, ho, _⟩ => ⟨ho, hr⟩
  senders := by rw [g.senders, k.senders, h.senders]
  busPort := by rw [g.busPort, k.busPort, h.busPort]
  cmd := by rw [g.cmd, k.host, h.cmd]
  hbuf := by rw [g.hbuf, k.host, h.hbuf]
  x := fun e => by rw [g.x e, k.x, h.x e]
  modeShadow := fun e => by rw [g.modeShadow e, k.modeShadow, h.modeShadow e]
  host := fun e => by rw [g.host e, k.host, h.host e]

/-- A micro-step without a transaction. -/
theorem Quiet.micro {w : Writes} {s t : State} (h : Quiet w s t) : MicroEffect w s t := .of_txn h (.rfl' t) (.rfl' w t)

theorem MicroEffect.andQuiet {w : Writes} {s t u : State} (h : MicroEffect w s t) (g : Quiet w t u) :
    MicroEffect w s u where
  cfg := g.cfg.trans h.cfg
  snap := g.snap.trans h.snap
  now := g.now.trans h.now
  env := g.env.trans h.env
  devRst := g.devRst.elim (fun e => h.devRst.imp e.trans e.trans) .inr
  faulted := by rw [g.busFault, g.trace]; exact h.faulted
  healthy := by rw [g.busFault]; exact h.healthy
  trace := by rw [g.trace]; exact h.trace
  senders := g.senders.trans h.senders
  busPort := g.busPort.trans h.busPort
  cmd := g.cmd.trans h.cmd
  hbuf := g.hbuf.trans h.hbuf
  x := fun e => (g.x e).trans (h.x e)
  modeShadow := fun e => (g.modeShadow e).trans (h.modeShadow e)
  host := fun e => (g.host e).trans (h.host e)

/-- Every way of going on, returning or failing leaves a state with a property; a stop is allowed. -/
def Post.everyState (P : State → Prop) : Post := ⟨P, fun _ => P, fun _ => P, fun _ => True, fun _ => True⟩

section
variable {w : Writes} {s₀ s : State} (hs : Quiet w s₀ s)
include hs

theorem readReg_effect {a : Addr} {k : Byte → State → Micro} (hk : ∀ b t, (k b t).Sat (.everyState (Quiet w t))) :
    (readReg a s k).Sat (.everyState (MicroEffect w s₀)) :=
  readReg_sat
    (fun b t ht _ _ => (hk b t).mono (fun _ => .of_txn hs ht) (fun _ _ => .of_txn hs ht) (fun _ _ => .of_txn hs ht)
      (fun _ => id) (fun _ => id))
    (fun t ht _ => .of_txn hs ht (.rfl' w t)) ⟨fun _ => trivial, fun _ _ => trivial⟩

theorem writeReg_effect {a : Addr} {v : Byte} {k : State → Micro} (hk : ∀ t, (k t).Sat (.everyState (Quiet w t))) :
    (writeReg a v s k).Sat (.everyState (MicroEffect w s₀)) :=
  writeReg_sat
    (fun t ht _ _ => (hk t).mono (fun _ => .of_txn hs ht) (fun _ _ => .of_txn hs ht) (fun _ _ => .of_txn hs ht)
      (fun _ => id) (fun _ => id))
    (fun t ht _ => .of_txn hs ht (.rfl' w t)) ⟨fun _ => trivial, fun _ _ => trivial⟩

theorem burstRead_effect {a : Addr} {n : Nat} {k : List Byte → State → Micro}
    (hk : ∀ bs t, (k bs t).Sat (.everyState (Quiet w t))) :
    ((busRead a n s).andThen k).Sat (.everyState (MicroEffect w s₀)) :=
  burstRead_sat
    (fun bs t ht _ _ _ => (hk bs t).mono (fun _ => .of_txn hs ht) (fun _ _ => .of_txn hs ht)
      (fun _ _ => .of_txn hs ht) (fun _ => id) (fun _ => id))
    (fun t ht _ => .of_txn hs ht (.rfl' w t)) ⟨fun _ => trivial, fun _ _ => trivial⟩ (fun _ _ => trivial)

theorem burstWrite_effect {a : Addr} {d : List Byte} {k : List Byte → State → Micro}
    (hk : ∀ bs t, (k bs t).Sat (.everyState (Quiet w t))) :
    ((busWrite a d s).andThen k).Sat (.everyState (MicroEffect w s₀)) :=
  burstWrite_sat
    (fun t ht _ _ => (hk [] t).mono (fun _ => .of_txn hs ht) (fun _ _ => .of_txn hs ht)
      (fun _ _ => .of_txn hs ht) (fun _ => id) (fun _ => id))
    (fun t ht _ => .of_txn hs ht (.rfl' w t)) ⟨fun _ => trivial, fun _ _ => trivial⟩ (fun _ _ => trivial)

end

/-- The field read-modify-write, for a commit that is block-side work. -/
theorem rmwBody_effect {w : Writes} {a : Addr} {mask : Byte} {pos : Nat} {val : Byte} {commit : State → State}
    (hc : ∀ t, Quiet w t (commit t)) (s : State) :
    (rmwBody a mask pos val commit s).Sat (.everyState (MicroEffect w s)) := by
  unfold rmwBody
  split
  · exact readReg_effect (.rfl' w s) fun b t => .registers ..
  · exact writeReg_effect (.rfl' w s) fun t => hc t
  · trivial

/-- A verified mode transition writes the shadow and the working registers. -/
theorem setModeStep_effect {w : Writes} (hw : w.shadow = true) (target : ModeCode) (retry : Bool) (s : State)
    {k : State → Micro} (hk : ∀ t, (k t).Sat (.everyState (Quiet w t))) :
    (setModeStep target retry s k).Sat (.everyState (MicroEffect w s)) := by
  unfold setModeStep
  split
  · exact readReg_effect (.registers ..) fun v t => .registers ..
  · exact writeReg_effect (.rfl' w s) fun t => .registers ..
  · refine readReg_effect (.rfl' w s) fun r t => ?_
    have shadow : ∀ (m : ModeCode) (q : Seq), Quiet w t { t with modeShadow := m, seq := q } := .setShadow hw t
    split
    · exact (hk _).mono (fun _ => (shadow target t.seq).trans) (fun _ _ => (shadow target t.seq).trans)
        (fun _ _ => (shadow target t.seq).trans) (fun _ => id) (fun _ => id)
    · split
      · exact shadow _ _
      · exact shadow _ t.seq
  · trivial

theorem waitStep_effect {w : Writes} (bit : Byte) (timeout : Err) (s : State) {k : State → Micro}
    (hk : ∀ t, (k t).Sat (.everyState (Quiet w t))) :
    (waitStep bit timeout s k).Sat (.everyState (MicroEffect w s)) := by
  have after : ∀ (t : State) (p : PeRegs),
      (k { t with pe := p }).Sat (.everyState (Quiet w t)) := fun t p =>
    have hp : Quiet w t { t with pe := p } := .registers ..
    (hk _).mono (fun _ => hp.trans) (fun _ _ => hp.trans) (fun _ _ => hp.trans) (fun _ => id) (fun _ => id)
  unfold waitStep
  split
  · refine readReg_effect (.rfl' w s) fun f t => ?_
    dsimp only
    split
    · exact after t _
    · split
      · exact .registers ..
      · exact .registers ..
  · unfold irqStep
    split
    · refine readReg_effect (.registers ..) fun f t => ?_
      dsimp only
      split
      · exact after t _
      · exact .registers ..
    · split
      · exact (Quiet.rfl' w s).micro
      · exact (Quiet.rfl' w s).micro

theorem ensureStandby_quiet (w : Writes) (m next : Main) (s : State) : Quiet w s (ensureStandby m next s) := by
  unfold ensureStandby
  split
  · exact .goto ..
  · exact .registers ..

theorem peTransmit_effect {w : Writes} (hw : w.shadow = true) (s : State) :
    (peTransmit s).Sat (.everyState (MicroEffect w s)) := by
  unfold peTransmit
  split
  case h_1 => exact (ensureStandby_quiet ..).micro
  case h_2 => exact setModeStep_effect hw _ _ _ fun t => .goto ..
  case h_3 => exact readReg_effect (.rfl' w s) fun b t => .registers ..
  case h_4 => exact writeReg_effect (.rfl' w s) fun t => .goto ..
  case h_5 => exact burstWrite_effect (.rfl' w s) fun _ t => .goto ..
  case h_6 => exact writeReg_effect (.rfl' w s) fun t => .goto ..
  case h_7 => exact writeReg_effect (.rfl' w s) fun t => .registers ..
  case h_8 => exact setModeStep_effect hw _ _ _ fun t => .armWait ..
  case h_9 => exact waitStep_effect _ _ _ fun t => .goto ..
  case h_10 => exact writeReg_effect (.rfl' w s) fun t => .registers ..
  case h_11 => exact setModeStep_effect hw _ _ _ fun t => .rfl' w t
  case h_12 => trivial

theorem peReceive_effect {w : Writes} (hw : w.shadow = true) (s : State) :
    (peReceive s).Sat (.everyState (MicroEffect w s)) := by
  unfold peReceive
  split
  case h_1 => exact (ensureStandby_quiet ..).micro
  case h_2 => exact setModeStep_effect hw _ _ _ fun t => .goto ..
  case h_3 => exact (Quiet.registers ..).micro
  case h_4 => exact setModeStep_effect hw _ _ _ fun t => .armWait ..
  case h_5 => exact waitStep_effect _ _ _ fun t => .goto ..
  case h_6 => exact (Quiet.goto ..).micro
  case h_7 => exact readReg_effect (.rfl' w s) fun n t => .registers ..
  case h_8 => exact readReg_effect (.rfl' w s) fun b t => .registers ..
  case h_9 => exact writeReg_effect (.rfl' w s) fun t => .goto ..
  case h_10 =>
    split
    · exact (Quiet.goto ..).micro
    · exact burstRead_effect (.rfl' w s) fun bs t => .registers ..
  case h_11 => exact writeReg_effect (.rfl' w s) fun t => .registers ..
  case h_12 =>
    refine setModeStep_effect hw _ _ _ fun t => ?_
    split
    · exact Quiet.rfl' w t
    · exact Quiet.rfl' w t
  case h_13 => trivial

theorem initBody_effect {w : Writes} (hx : w.tuple = true) (hw : w.shadow = true) (s : State) :
    (initBody s).Sat (.everyState (MicroEffect w s)) := by
  unfold initBody
  split
  case h_1 => exact ((Quiet.initPulse hx s).trans (.goto ..)).micro
  case h_2 => exact writeReg_effect (.rfl' w s) fun t => .setShadow hw ..
  case h_3 =>
    refine readReg_effect (.rfl' w s) fun r t => ?_
    split
    · exact Quiet.goto ..
    · exact Quiet.setShadow hw t _ t.seq
  case h_4 => exact writeReg_effect (.rfl' w s) fun t => .goto ..
  case h_5 => exact writeReg_effect (.rfl' w s) fun t => .registers ..
  case h_6 => exact setModeStep_effect hw _ _ _ fun t => .rfl' w t
  case h_7 => trivial

/-! What one step of the command executor can do, for every command and at every place of the lock envelope. -/

/-- The commands that change the device mode, and with it the shadow (42_mode_controller.md R191, R195). -/
def changesMode : Instr → Bool
  | .setmode _ | .init | .transmit _ | .receive => true
  | _ => false

/-- The commands that deliver bytes to `rbuf` and `rlen` (40_register_interface.md R140, 43_packet_engine.md R215). -/
def delivers : Instr → Bool
  | .rdburst _ _ | .receive => true
  | _ => false

/-- What the body of a command may write. -/
def commandWrites (i : Instr) : Writes := ⟨writesTuple i, changesMode i, delivers i⟩

theorem changesMode_eq_false {i : Instr} (hm : ∀ m, i ≠ .setmode m) (hi : i ≠ .init) (ht : ∀ n, i ≠ .transmit n)
    (hr : i ≠ .receive) : changesMode i = false := by
  cases i with
  | setmode m => exact absurd rfl (hm m)
  | init => exact absurd rfl hi
  | transmit n => exact absurd rfl (ht n)
  | receive => exact absurd rfl hr
  | _ => rfl

theorem delivers_eq_false {i : Instr} (hb : ∀ a n, i ≠ .rdburst a n) (hr : i ≠ .receive) : delivers i = false := by
  cases i with
  | rdburst a n => exact absurd rfl (hb a n)
  | receive => exact absurd rfl hr
  | _ => rfl

theorem isSchstart_of_usesEnvelope {i : Instr} (h : usesEnvelope i = true) : isSchstart i = false := by
  cases i with
  | schstart m => cases h
  | _ => rfl

/-- The accepted word and `hbuf` are kept, and unless bytes are delivered, `rbuf` and `rlen`. -/
structure PortKept (delivery : Bool) (p q : HostPort) : Prop where
  cmd : q.cmd = p.cmd
  hbuf : q.hbuf = p.hbuf
  rbuf : delivery = false → q.rbuf = p.rbuf
  rlen : delivery = false → q.rlen = p.rlen

theorem PortKept.rfl' (d : Bool) (p : HostPort) : PortKept d p p := ⟨rfl, rfl, fun _ => rfl, fun _ => rfl⟩

theorem PortKept.trans {d : Bool} {p q r : HostPort} (h : PortKept d p q) (g : PortKept d q r) : PortKept d p r :=
  ⟨g.cmd.trans h.cmd, g.hbuf.trans h.hbuf, fun e => (g.rbuf e).trans (h.rbuf e), fun e => (g.rlen e).trans (h.rlen e)⟩

/-- The completion of a command keeps the rest of the port. -/
theorem PortKept.completed (d : Bool) (p : HostPort) (busy : Bool) (pos : HostPos) (status : Byte) (res : Word32) :
    PortKept d p { p with busy := busy, pos := pos, status := status, res := res } :=
  ⟨rfl, rfl, fun _ => rfl, fun _ => rfl⟩

theorem MicroEffect.port {w : Writes} {s t : State} (h : MicroEffect w s t) : PortKept w.delivery s.host t.host :=
  ⟨h.cmd, h.hbuf, fun e => congrArg (·.rbuf) (h.host e), fun e => congrArg (·.rlen) (h.host e)⟩

/-! ## The envelope of a command -/

/-- What the parts of a command's envelope can do: the body as `MicroEffect` says; the step that takes the lock writes
besides the sequencer and its registers only; an error adds to the port and the count of free values only. -/
structure EnvelopeParts (w : Writes) (s : State) (v : Envelope) : Prop where
  body : (v.body s).Sat (.everyState (MicroEffect w s))
  start : ∀ t, ∃ p q, v.start t = { t with pe := p, seq := q }
  onErr : ∀ e t, ∃ p d, v.onErr e t = { t with host := p, drawn := d } ∧ PortKept w.delivery t.host p

/-- A command with nothing to add on an error, by its body and its start. -/
theorem EnvelopeParts.of_body {w : Writes} {s : State} {check : Option Err} {start : State → State}
    {body : State → Micro} (hb : (body s).Sat (.everyState (MicroEffect w s)))
    (hs : ∀ t, ∃ p q, start t = { t with pe := p, seq := q }) :
    EnvelopeParts w s { check := check, start := start, body := body, onErr := noErrEffect } :=
  ⟨hb, hs, fun _ t => ⟨_, _, rfl, .rfl' _ t.host⟩⟩

/-- The same, for a body that starts at a main step. -/
theorem envelopeAt_parts {w : Writes} {s : State} (m : Main) {body : State → Micro}
    (hb : (body s).Sat (.everyState (MicroEffect w s))) : EnvelopeParts w s (envelopeAt m body) :=
  .of_body hb fun _ => ⟨_, _, rfl⟩

theorem rdregBody_effect (w : Writes) (a : Addr) (s : State) :
    (rdregBody a s).Sat (.everyState (MicroEffect w s)) := by
  unfold rdregBody
  split
  · exact readReg_effect (.rfl' w s) fun _ t => .rfl' w t
  · trivial

theorem wrregBody_effect (w : Writes) (a : Addr) (d : Byte) (s : State) :
    (wrregBody a d s).Sat (.everyState (MicroEffect w s)) := by
  unfold wrregBody
  split
  · exact writeReg_effect (.rfl' w s) fun t => .rfl' w t
  · trivial

theorem rdburstBody_effect {w : Writes} (hw : w.delivery = true) (a : Addr) (n : Byte) (s : State) :
    (rdburstBody a n s).Sat (.everyState (MicroEffect w s)) := by
  unfold rdburstBody
  split
  · split
    · exact (Quiet.setDelivery hw s s.host.rbuf 0).micro
    · exact burstRead_effect (.rfl' w s) fun bs t => .setDelivery hw ..
  · trivial

theorem wrburstBody_effect (w : Writes) (a : Addr) (n : Byte) (s : State) :
    (wrburstBody a n s).Sat (.everyState (MicroEffect w s)) := by
  unfold wrburstBody
  split
  · split
    · exact (Quiet.rfl' w s).micro
    · exact burstWrite_effect (.rfl' w s) fun _ t => .rfl' w t
  · trivial

theorem setpreBody_effect {w : Writes} (hw : w.tuple = true) (n : BitVec 16) (s : State) :
    (setpreBody n s).Sat (.everyState (MicroEffect w s)) := by
  unfold setpreBody
  split
  · exact writeReg_effect (.rfl' w s) fun t => .goto ..
  · exact writeReg_effect (.rfl' w s) fun t => .setTuple hw ..
  · trivial

theorem setfreqBody_effect {w : Writes} (hw : w.tuple = true) (f : Word32) (s : State) :
    (setfreqBody f s).Sat (.everyState (MicroEffect w s)) := by
  unfold setfreqBody
  split
  · exact writeReg_effect (.rfl' w s) fun t => .goto ..
  · exact writeReg_effect (.rfl' w s) fun t => .goto ..
  · exact writeReg_effect (.rfl' w s) fun t => .setTuple hw ..
  · trivial

theorem setpwrBody_effect {w : Writes} (hw : w.tuple = true) (p : Byte) (s : State) :
    (setpwrBody p s).Sat (.everyState (MicroEffect w s)) := by
  unfold setpwrBody
  split
  · exact writeReg_effect (.rfl' w s) fun t => .goto ..
  · exact writeReg_effect (.rfl' w s) fun t => .setTuple hw ..
  · trivial

theorem getBody_effect (w : Writes) (a : Addr) (field : Byte → Word32) (s : State) :
    (getBody a field s).Sat (.everyState (MicroEffect w s)) := by
  unfold getBody
  split
  · exact readReg_effect (.rfl' w s) fun _ t => .rfl' w t
  · trivial

theorem getpreBody_effect (w : Writes) (s : State) : (getpreBody s).Sat (.everyState (MicroEffect w s)) := by
  unfold getpreBody
  split
  · exact readReg_effect (.rfl' w s) fun _ t => .registers ..
  · exact readReg_effect (.rfl' w s) fun _ t => .rfl' w t
  · trivial

theorem getfreqBody_effect (w : Writes) (s : State) : (getfreqBody s).Sat (.everyState (MicroEffect w s)) := by
  unfold getfreqBody
  split
  · exact readReg_effect (.rfl' w s) fun _ t => .registers ..
  · exact readReg_effect (.rfl' w s) fun _ t => .registers ..
  · exact readReg_effect (.rfl' w s) fun _ t => .rfl' w t
  · trivial

theorem setmodeBody_effect {w : Writes} (hw : w.shadow = true) (m : ModeCode) (s : State) :
    (setmodeBody m s).Sat (.everyState (MicroEffect w s)) := by
  unfold setmodeBody
  split
  · exact setModeStep_effect hw _ _ _ fun t => .rfl' w t
  · trivial

theorem transmitBody_effect {w : Writes} (hw : w.shadow = true) (r : Word32) (s : State) :
    ((peTransmit s).onDone (fun _ t => .done r t)).Sat (.everyState (MicroEffect w s)) :=
  Micro.onDone_sat (peTransmit_effect hw s)

theorem receiveBody_effect {w : Writes} (hw : w.shadow = true) (hd : w.delivery = true) (s : State) :
    ((peReceive s).onDone (fun _ t => .done (t.pe.len.setWidth 32) (t.deliver t.payload t.pe.len))).Sat
      (.everyState (MicroEffect w s)) :=
  Micro.onDone_sat ((peReceive_effect hw s).mono (fun _ => id) (fun _ _ h => h.andQuiet (.setDelivery hd ..))
    (fun _ _ => id) (fun _ => id) (fun _ => id))

/-- An error of RDBURST touches the receive side of the port and the count of free values. -/
theorem rdburstOnErr_parts (e : Err) (t : State) :
    ∃ p d, rdburstOnErr e t = { t with host := p, drawn := d } ∧ PortKept true t.host p := by
  cases e with
  | busFault => exact ⟨_, _, rfl, rfl, rfl, nofun, nofun⟩
  | _ => exact ⟨_, _, rfl, .rfl' _ t.host⟩

/-- Every command of the envelope, with what its parts can do. -/
theorem exec_envelope {i : Instr} (h : usesEnvelope i = true) (s : State) :
    ∃ v : Envelope, exec i s = v.exec s ∧ EnvelopeParts (commandWrites i) s v := by
  cases i with
  | rdreg a => exact ⟨_, rfl, envelopeAt_parts _ (rdregBody_effect ..)⟩
  | wrreg a d => exact ⟨_, rfl, envelopeAt_parts _ (wrregBody_effect ..)⟩
  | rdburst a n =>
    exact ⟨_, rfl, rdburstBody_effect rfl a n s, fun _ => ⟨_, _, rfl⟩, rdburstOnErr_parts⟩
  | wrburst a n => exact ⟨_, rfl, .of_body (wrburstBody_effect ..) fun _ => ⟨_, _, rfl⟩⟩
  | setsf v => exact ⟨_, rfl, envelopeAt_parts _ (rmwBody_effect (fun _ => .setTuple rfl ..) s)⟩
  | setbw v => exact ⟨_, rfl, envelopeAt_parts _ (rmwBody_effect (fun _ => .setTuple rfl ..) s)⟩
  | setcr v => exact ⟨_, rfl, envelopeAt_parts _ (rmwBody_effect (fun _ => .setTuple rfl ..) s)⟩
  | setcrc v => exact ⟨_, rfl, envelopeAt_parts _ (rmwBody_effect (fun _ => .setTuple rfl ..) s)⟩
  | setpre n => exact ⟨_, rfl, envelopeAt_parts _ (setpreBody_effect rfl ..)⟩
  | setfreq f => exact ⟨_, rfl, envelopeAt_parts _ (setfreqBody_effect rfl ..)⟩
  | setpwr d => exact ⟨_, rfl, envelopeAt_parts _ (setpwrBody_effect rfl ..)⟩
  | getsf => exact ⟨_, rfl, envelopeAt_parts _ (getBody_effect ..)⟩
  | getbw => exact ⟨_, rfl, envelopeAt_parts _ (getBody_effect ..)⟩
  | getcr => exact ⟨_, rfl, envelopeAt_parts _ (getBody_effect ..)⟩
  | getcrc => exact ⟨_, rfl, envelopeAt_parts _ (getBody_effect ..)⟩
  | getpre => exact ⟨_, rfl, envelopeAt_parts _ (getpreBody_effect ..)⟩
  | getfreq => exact ⟨_, rfl, envelopeAt_parts _ (getfreqBody_effect ..)⟩
  | setmode m => exact ⟨_, rfl, .of_body (setmodeBody_effect rfl m s) fun _ => ⟨_, _, rfl⟩⟩
  | init => exact ⟨_, rfl, envelopeAt_parts _ (initBody_effect rfl rfl s)⟩
  | transmit len => exact ⟨_, rfl, .of_body (transmitBody_effect rfl _ s) fun _ => ⟨_, _, rfl⟩⟩
  | receive =>
    exact ⟨_, rfl, receiveBody_effect rfl rfl s, fun _ => ⟨_, _, rfl⟩, fun _ _ => ⟨_, _, rfl, rfl, rfl, nofun, nofun⟩⟩
  | ismode | schstart | busRd | busWr => cases h

/-! ## One step of the executor on a command -/

/-- What one step on a command can do. -/
structure CommandEffect (i : Instr) (s t : State) : Prop extends MasterEffect s t where
  port : PortKept (delivers i) s.host t.host
  x : writesTuple i = false → t.x = s.x
  modeShadow : changesMode i = false → t.modeShadow = s.modeShadow
  senders : isSchstart i = false → t.senders = s.senders
  busPort : usesEnvelope i = true → t.busPort = s.busPort

/-- A step that makes no transaction and writes nothing but the lock, the sequencer, its registers, the port, the
senders and the count of free values. -/
def BlockOnly (s t : State) : Prop :=
  ∃ o q p h v d, t = { s with lockOwner := o, seq := q, pe := p, host := h, senders := v, drawn := d }

theorem BlockOnly.rfl' (s : State) : BlockOnly s s := ⟨_, _, _, _, _, _, rfl⟩

theorem BlockOnly.sameDevice {s t : State} (h : BlockOnly s t) : sameDevice s t := by
  obtain ⟨o, q, p, port, v, d, rfl⟩ := h
  exact ⟨fun _ => rfl, fun _ => rfl⟩

theorem BlockOnly.master {s t : State} (h : BlockOnly s t) : MasterEffect s t := by
  obtain ⟨o, q, p, port, v, d, rfl⟩ := h
  exact ⟨⟨fun hf => ⟨hf, rfl⟩, .inl rfl⟩, rfl, rfl, rfl, rfl, .inl rfl, fun _ => rfl⟩

theorem BlockOnly.command {i : Instr} {s t : State} (h : BlockOnly s t) (hp : PortKept (delivers i) s.host t.host)
    (hs : isSchstart i = false → t.senders = s.senders) : CommandEffect i s t := by
  have hm := h.master
  obtain ⟨o, q, p, port, v, d, rfl⟩ := h
  exact { hm with port := hp, x := fun _ => rfl, modeShadow := fun _ => rfl, senders := hs, busPort := fun _ => rfl }

/-- After a micro-step the envelope may go on to write the port, the sequencer, the lock and the count of free values. -/
theorem MicroEffect.command {i : Instr} {s t : State} (h : MicroEffect (commandWrites i) s t) {p : HostPort} {q : Seq}
    {o : Owner} {d : Nat} (hp : PortKept (delivers i) t.host p) :
    CommandEffect i s { t with host := p, seq := q, lockOwner := o, drawn := d } where
  faulted := h.faulted
  trace := h.trace
  cfg := h.cfg
  snap := h.snap
  now := h.now
  env := h.env
  devRst := h.devRst
  healthy := h.healthy
  port := h.port.trans hp
  x := h.x
  modeShadow := h.modeShadow
  senders := fun _ => h.senders
  busPort := fun _ => h.busPort

/-- A step in the body. -/
theorem Envelope.run_effect {i : Instr} {v : Envelope} {s t : State} (hv : EnvelopeParts (commandWrites i) s v)
    (h : v.run s = .next t) : CommandEffect i s t := by
  have hb := hv.body
  unfold Envelope.run at h
  cases hm : v.body s with
  | cont u => rw [hm] at h hb; cases h; exact MicroEffect.command hb (.rfl' ..)
  | done r u => rw [hm] at h hb; cases h; exact MicroEffect.command hb (.completed ..)
  | raise e u =>
    rw [hm] at h hb
    cases h
    obtain ⟨p, d, he, hp⟩ := hv.onErr e (u.unlock.raiseHost e)
    unfold Envelope.failLocked
    rw [he]
    exact MicroEffect.command hb ((PortKept.completed ..).trans hp)
  | fault f => rw [hm] at h; cases h
  | refused r => rw [hm] at h; cases h

/-- A step of a command that does not hold the lock. -/
structure BeforeLock (w : Writes) (s t : State) : Prop where
  block : BlockOnly s t
  port : PortKept w.delivery s.host t.host
  senders : t.senders = s.senders

theorem Envelope.failUnlocked_beforeLock {w : Writes} {v : Envelope} {s : State} (hv : EnvelopeParts w s v) (e : Err) :
    BeforeLock w s (v.failUnlocked e s) := by
  obtain ⟨p, d, he, hp⟩ := hv.onErr e (s.raiseHost e)
  unfold Envelope.failUnlocked
  rw [he]
  exact ⟨⟨_, _, _, _, _, _, rfl⟩, (PortKept.completed ..).trans hp, rfl⟩

theorem Envelope.enter_beforeLock {w : Writes} {v : Envelope} {s : State} (hv : EnvelopeParts w s v) :
    BeforeLock w s (v.enter s) := by
  unfold Envelope.enter
  split
  · exact v.failUnlocked_beforeLock hv _
  · split
    · exact v.failUnlocked_beforeLock hv _
    · exact ⟨⟨_, _, _, _, _, _, rfl⟩, .completed .., rfl⟩

theorem Envelope.await_beforeLock {w : Writes} {v : Envelope} {s : State} (hv : EnvelopeParts w s v)
    (deadline : Option Word32) : BeforeLock w s (v.await deadline s) := by
  unfold Envelope.await
  split
  · split
    · exact v.failUnlocked_beforeLock hv _
    · obtain ⟨p, q, hs⟩ := hv.start { s with lockOwner := .host, host := { s.host with pos := .e3 } }
      rw [hs]
      exact ⟨⟨_, _, _, _, _, _, rfl⟩, .completed .., rfl⟩
  · split
    · exact v.failUnlocked_beforeLock hv _
    · exact ⟨.rfl' s, .rfl' _ s.host, rfl⟩

/-- Before the lock is held. -/
theorem exec_beforeLock {i : Instr} {s t : State} (hi : usesEnvelope i = true) (hp : s.host.pos ≠ .e3)
    (h : exec i s = .next t) : BeforeLock (commandWrites i) s t := by
  obtain ⟨v, hv, hparts⟩ := exec_envelope hi s
  rw [hv] at h
  unfold Envelope.exec at h
  split at h
  · cases h; exact v.enter_beforeLock hparts
  · cases h; exact v.await_beforeLock hparts _
  · next he => exact absurd he hp

/-- A transaction on the bus port. -/
theorem busPort_command {i : Instr} {s t : State} (hi : usesEnvelope i = false) (bs : List Byte) (h : TxnEffect s t) :
    CommandEffect i s (t.closeBus bs) :=
  have hm : MicroEffect ⟨false, false, delivers i⟩ s t := .of_txn (.rfl' _ s) h (.rfl' _ t)
  { faulted := hm.faulted, trace := hm.trace, cfg := hm.cfg, snap := hm.snap, now := hm.now, env := hm.env
    devRst := hm.devRst, healthy := hm.healthy, port := hm.port, x := fun _ => hm.x rfl
    modeShadow := fun _ => hm.modeShadow rfl, senders := fun _ => hm.senders
    busPort := fun e => by rw [hi] at e; cases e }

theorem execBusRd_effect {a : Addr} {s t : State} (h : execBusRd a s = .next t) : CommandEffect (.busRd a) s t := by
  unfold execBusRd at h
  split at h
  · cases h; exact busPort_command rfl _ (.rfl' s)
  · rcases busRead_cases a s.busPort.want.toNat s with
      ⟨bs, u, hb, he, -⟩ | ⟨u, hb, he, -⟩ | ⟨hb, -⟩ | ⟨hb, -⟩ | ⟨hb, -⟩
    · rw [hb] at h; cases h; exact busPort_command rfl _ he
    · rw [hb] at h; cases h; exact busPort_command rfl _ he
    · rw [hb] at h; cases h
    · rw [hb] at h; cases h
    · rw [hb] at h; cases h

theorem execBusWr_effect {a : Addr} {s t : State} (h : execBusWr a s = .next t) : CommandEffect (.busWr a) s t := by
  unfold execBusWr at h
  split at h
  · cases h; exact busPort_command rfl _ (.rfl' s)
  · rcases busWrite_cases a s.busPort.out s with
      ⟨u, hb, he, -⟩ | ⟨u, hb, he, -⟩ | ⟨hb, -⟩ | ⟨hb, -⟩ | ⟨hb, -⟩
    · rw [hb] at h; cases h; exact busPort_command rfl _ he
    · rw [hb] at h; cases h; exact busPort_command rfl _ he
    · rw [hb] at h; cases h
    · rw [hb] at h; cases h
    · rw [hb] at h; cases h

theorem execIsmode_blockOnly {m : ModeCode} {s t : State} (h : exec (.ismode m) s = .next t) : BlockOnly s t := by
  cases h
  exact ⟨_, _, _, _, _, _, rfl⟩

theorem execSchstart_blockOnly {m : BitVec 5} {s t : State} (h : exec (.schstart m) s = .next t) : BlockOnly s t := by
  cases h
  exact ⟨_, _, _, _, _, _, rfl⟩

/-- Everything a step on a command can do, wherever it stands in its envelope. -/
theorem exec_effect {i : Instr} {s t : State} (h : exec i s = .next t) : CommandEffect i s t := by
  by_cases hi : usesEnvelope i = true
  · by_cases hp : s.host.pos = .e3
    · obtain ⟨v, hv, hparts⟩ := exec_envelope hi s
      rw [hv] at h
      unfold Envelope.exec at h
      rw [hp] at h
      exact v.run_effect hparts h
    · have hb := exec_beforeLock hi hp h
      exact hb.block.command hb.port fun _ => hb.senders
  · cases i with
    | ismode m =>
      have hb := execIsmode_blockOnly h
      cases h
      exact hb.command (.completed ..) fun _ => rfl
    | schstart m =>
      have hb := execSchstart_blockOnly h
      cases h
      exact hb.command (.completed ..) nofun
    | busRd a => exact execBusRd_effect h
    | busWr a => exact execBusWr_effect h
    | rdreg | wrreg | rdburst | wrburst | setsf | setbw | setcr | setcrc | setpre | setfreq | setpwr => exact absurd rfl hi
    | getsf | getbw | getcr | getcrc | getpre | getfreq | setmode | init | transmit | receive => exact absurd rfl hi

/-- Settles O52: each step of a body is a `CommandEffect`, and every step before the lock, of ISMODE or of SCHSTART
writes the block only. -/
theorem frameOfTheBlock : Obligations.FrameOfTheBlock := by
  unfold Obligations.FrameOfTheBlock
  refine ⟨fun i s t hi _ h => ?_, fun i s t hi h => ?_⟩
  · have he := exec_effect h
    exact ⟨he.cfg, he.senders (isSchstart_of_usesEnvelope hi), he.snap, he.now, he.env, he.busPort hi, he.port.cmd,
      he.port.hbuf, he.x,
      fun hm hn ht hr => he.modeShadow (changesMode_eq_false hm hn ht hr),
      fun hb hr => ⟨he.port.rbuf (delivers_eq_false hb hr), he.port.rlen (delivers_eq_false hb hr)⟩, he.healthy⟩
  · have hb : BlockOnly s t := by
      rcases hi with ⟨hi, hp⟩ | ⟨m, rfl⟩ | ⟨m, rfl⟩
      · exact (exec_beforeLock hi hp h).block
      · exact execIsmode_blockOnly h
      · exact execSchstart_blockOnly h
    have hd := hb.sameDevice
    obtain ⟨o, q, p, port, v, d, rfl⟩ := hb
    exact ⟨hd, rfl, rfl, rfl, rfl, rfl, rfl, rfl, rfl, rfl⟩

/-! What one step of the machine can do, whatever agent moves: the senders, the executor, the agents outside the bus. -/

/-! ## Senders -/

theorem Five.get_set {α : Type} (v : Five α) (i j : Sid) (x : α) : (v.set i x).get j = if j = i then x else v.get j := by
  cases i <;> cases j <;> rfl

theorem Five.get_set_same {α : Type} (v : Five α) (i : Sid) (x : α) : (v.set i x).get i = x := by
  rw [Five.get_set, if_pos rfl]

theorem Five.get_set_other {α : Type} (v : Five α) {i j : Sid} (x : α) (h : j ≠ i) : (v.set i x).get j = v.get j := by
  rw [Five.get_set, if_neg h]

/-- What one step of sender `i` can do. -/
structure SenderEffect (i : Sid) (s t : State) : Prop extends MasterEffect s t where
  host : t.host = s.host
  x : t.x = s.x
  others : ∀ j, j ≠ i → t.senders.get j = s.senders.get j

theorem MicroEffect.sender {i : Sid} {s t : State} (h : MicroEffect .onlyShadow s t) : SenderEffect i s t :=
  { h.toMasterEffect with host := h.host rfl, x := h.x rfl, others := fun j _ => by rw [h.senders] }

theorem SenderEffect.rfl' (i : Sid) (s : State) : SenderEffect i s s := (Quiet.rfl' _ s).micro.sender

/-- A sender may go on to write the lock, the sequencer, its registers and its own registers. -/
theorem SenderEffect.own {i : Sid} {s t : State} (h : SenderEffect i s t) (o : Owner) (q : Seq) (p : PeRegs)
    (r : Sender) : SenderEffect i s { t with lockOwner := o, seq := q, pe := p, senders := t.senders.set i r } where
  faulted := h.faulted
  trace := h.trace
  cfg := h.cfg
  snap := h.snap
  now := h.now
  env := h.env
  devRst := h.devRst
  healthy := h.healthy
  host := h.host
  x := h.x
  others := fun j hj => (Five.get_set_other _ r hj).trans (h.others j hj)

theorem senderSend_effect {i : Sid} {s t : State} (h : senderSend i s = .next t) : SenderEffect i s t := by
  have hm := peTransmit_effect (w := .onlyShadow) rfl s
  unfold senderSend at h
  split at h
  · cases h; exact (SenderEffect.rfl' i s).own ..
  · cases hp : peTransmit s with
    | cont u => rw [hp] at h hm; cases h; exact MicroEffect.sender hm
    | done r u => rw [hp] at h hm; cases h; exact (MicroEffect.sender hm).own ..
    | raise e u => rw [hp] at h hm; cases h; exact (MicroEffect.sender hm).own ..
    | fault f => rw [hp] at h; cases h
    | refused r => rw [hp] at h; cases h

theorem senderWaitlock_effect (i : Sid) (k : Bool) (s : State) : SenderEffect i s (senderWaitlock i k s) := by
  unfold senderWaitlock
  split
  · exact (SenderEffect.rfl' i s).own ..
  · split
    · exact (SenderEffect.rfl' i s).own ..
    · exact .rfl' i s

theorem senderWake_effect (i : Sid) (s : State) : SenderEffect i s (senderWake i s) := by
  dsimp only [senderWake]
  split
  · exact (SenderEffect.rfl' i s).own ..
  · exact .rfl' i s

theorem senderStep_effect {i : Sid} {k : Bool} {s t : State} (h : senderStep i k s = .next t) : SenderEffect i s t := by
  unfold senderStep at h
  split at h
  case h_1 => cases h; exact .rfl' i s
  case h_2 => cases h; exact senderWake_effect i s
  case h_3 => cases h; exact senderWaitlock_effect i k s
  case h_4 => cases h; exact (SenderEffect.rfl' i s).own ..
  case h_5 => exact senderSend_effect h
  case h_6 => cases h; exact (SenderEffect.rfl' i s).own ..

/-- A sender about to send on a faulted bus fails at once (44_arbiter_scheduler.md R247). -/
theorem senderStep_faulted {i : Sid} {k : Bool} {s : State} (hp : (s.senders.get i).phase = .sending)
    (hq : s.seq = ⟨.tEns, .none⟩) (hf : s.busFault = true) :
    senderStep i k s = .next (senderSent i Err.busFault.code s) := by
  unfold senderStep senderSend
  rw [hp]
  exact if_pos ⟨hq, hf⟩

/-! ## The executor -/

/-- What one step of the command executor can do, whatever word is accepted. -/
structure ExecutorEffect (s t : State) : Prop extends MasterEffect s t where
  cmd : t.host.cmd = s.host.cmd
  hbuf : t.host.hbuf = s.host.hbuf
  x : s.cmdIs writesTuple = false → t.x = s.x
  senders : s.cmdIs isSchstart = false → t.senders = s.senders

theorem executorStep_effect {s t : State} (h : executorStep s = .next t) : ExecutorEffect s t := by
  unfold executorStep at h
  split at h
  · cases hd : decodeCmd s.host.cmd with
    | ok i =>
      rw [hd] at h
      have he : CommandEffect i s t := exec_effect h
      have hc : ∀ p : Instr → Bool, s.cmdIs p = p i := fun p => by simp only [State.cmdIs, hd]
      exact { he.toMasterEffect with
        cmd := he.port.cmd, hbuf := he.port.hbuf, x := fun e => he.x ((hc _).symm.trans e)
        senders := fun e => he.senders ((hc _).symm.trans e) }
    | error d =>
      rw [hd] at h
      cases h
      have hm : BlockOnly s (s.raiseHost .illegalCommand) := ⟨_, _, _, _, _, _, rfl⟩
      exact { hm.master with cmd := rfl, hbuf := rfl, x := fun _ => rfl, senders := fun _ => rfl }
  · cases h
    exact { (BlockOnly.rfl' s).master with cmd := rfl, hbuf := rfl, x := fun _ => rfl, senders := fun _ => rfl }

/-! ## The agents outside the bus -/

/-- Nothing changes but the device and the interrupt line's latch and level. -/
def OnlyDevice (s t : State) : Prop := ∃ d l p, t = { s with dev := d, irqLatch := l, irqPrev := p }

theorem OnlyDevice.rfl' (s : State) : OnlyDevice s s := ⟨_, _, _, rfl⟩

theorem OnlyDevice.trans {s t u : State} (h : OnlyDevice s t) (g : OnlyDevice t u) : OnlyDevice s u := by
  obtain ⟨d, l, p, rfl⟩ := h
  obtain ⟨d', l', p', rfl⟩ := g
  exact ⟨_, _, _, rfl⟩

theorem onlyDevice_putReg (s : State) (a : Addr) (v : Byte) : OnlyDevice s (s.putReg a v) := ⟨_, _, _, rfl⟩

theorem onlyDevice_setFlags (s : State) (v : Byte) : OnlyDevice s (s.setFlags v) := by
  unfold State.setFlags
  split
  · exact .rfl' s
  · exact ⟨_, _, _, rfl⟩

theorem devTxDone_onlyDevice (s : State) : OnlyDevice s (devTxDone s) := by
  dsimp only [devTxDone]
  split
  · split
    · exact (onlyDevice_setFlags s _).trans (onlyDevice_putReg ..)
    · exact onlyDevice_setFlags s _
  · exact .rfl' s

theorem devRxDone_onlyDevice (a : Byte) (bytes : List Byte) (ok : Bool) (s : State) :
    OnlyDevice s (devRxDone a bytes ok s) := by
  dsimp only [devRxDone]
  split
  · have hf : ∀ m, OnlyDevice s { s with dev := { s.dev with fifo := m } } := fun m => ⟨_, _, _, rfl⟩
    exact (((hf _).trans (onlyDevice_putReg ..)).trans (onlyDevice_putReg ..)).trans (onlyDevice_setFlags ..)
  · exact .rfl' s

theorem devFlag_onlyDevice (b : BitVec 3) (s : State) : OnlyDevice s (devFlag b s) := by
  unfold devFlag
  split
  · exact onlyDevice_setFlags s _
  · exact .rfl' s

theorem devModeGlitch_onlyDevice (v : Byte) (s : State) : OnlyDevice s (devModeGlitch v s) := by
  unfold devModeGlitch
  split
  · exact onlyDevice_putReg ..
  · exact .rfl' s

/-- Without the switch there is no fault injection (60_exceptions.md R286). -/
theorem devModeGlitch_off {s : State} (h : s.cfg.deviceFaultInjection = false) (v : Byte) : devModeGlitch v s = s := by
  simp [devModeGlitch, h]

theorem devFlag_off {s : State} (h : s.cfg.deviceFaultInjection = false) (b : BitVec 3) : devFlag b s = s := by
  simp [devFlag, h]

/-- The moves of the agents outside the bus: the device, the host, the producers, the clock. -/
def isOutside : Event → Bool
  | .exec _ | .sender _ _ _ | .rst => false
  | _ => true

/-- What a move of an agent outside the bus can do. -/
structure OutsideEffect (e : Event) (s t : State) : Prop where
  cfg : t.cfg = s.cfg
  env : t.env = s.env
  x : t.x = s.x
  modeShadow : t.modeShadow = s.modeShadow
  lockOwner : t.lockOwner = s.lockOwner
  seq : t.seq = s.seq
  pe : t.pe = s.pe
  trace : t.trace = s.trace
  busFault : t.busFault = s.busFault
  senders : t.senders = s.senders
  sel : t.sel = s.sel
  devRst : t.devRst = s.devRst
  status : t.host.status = s.host.status
  res : t.host.res = s.host.res
  rbuf : t.host.rbuf = s.host.rbuf
  rlen : t.host.rlen = s.host.rlen
  now : e ≠ .tick → t.now = s.now
  snap : ∀ i, (∀ b, e ≠ .snapWrite i b) → t.snap.get i = s.snap.get i
  hbuf : (∀ k b, e ≠ .hbufWrite k b) → t.host.hbuf = s.host.hbuf
  accepted : (∀ w, e ≠ .present w) → t.host.cmd = s.host.cmd ∧ t.host.busy = s.host.busy ∧ t.host.pos = s.host.pos
  device : movesDevice s.cfg e = false → t.dev = s.dev ∧ t.irqLatch = s.irqLatch ∧ t.irqPrev = s.irqPrev

/-- A move of the device, which is allowed to touch it unless it did nothing. -/
theorem OnlyDevice.outside {e : Event} {s t : State} (h : OnlyDevice s t)
    (hm : movesDevice s.cfg e = false → t = s) : OutsideEffect e s t := by
  have hd : movesDevice s.cfg e = false → t.dev = s.dev ∧ t.irqLatch = s.irqLatch ∧ t.irqPrev = s.irqPrev :=
    fun he => by rw [hm he]; exact ⟨rfl, rfl, rfl⟩
  obtain ⟨d, l, p, rfl⟩ := h
  exact ⟨rfl, rfl, rfl, rfl, rfl, rfl, rfl, rfl, rfl, rfl, rfl, rfl, rfl, rfl, rfl, rfl, fun _ => rfl,
    fun _ _ => rfl, fun _ => rfl, fun _ => ⟨rfl, rfl, rfl⟩, hd⟩

theorem OutsideEffect.rfl' (e : Event) (s : State) : OutsideEffect e s s := (OnlyDevice.rfl' s).outside fun _ => rfl

theorem hostPresent_outside (w : CmdWord) (s : State) : OutsideEffect (.present w) s (hostPresent w s) := by
  unfold hostPresent
  split
  · exact .rfl' _ s
  · exact { OutsideEffect.rfl' (.present w) s with
      status := rfl, res := rfl, rbuf := rfl, rlen := rfl, hbuf := fun _ => rfl
      accepted := fun he => absurd rfl (he w) }

theorem hostWriteBuf_outside (k : Byte) (b : List Byte) (s : State) :
    OutsideEffect (.hbufWrite k b) s (hostWriteBuf k b s) := by
  unfold hostWriteBuf
  split
  · exact .rfl' _ s
  · exact { OutsideEffect.rfl' (.hbufWrite k b) s with
      status := rfl, res := rfl, rbuf := rfl, rlen := rfl, hbuf := fun he => absurd rfl (he k b)
      accepted := fun _ => ⟨rfl, rfl, rfl⟩ }

theorem snapWrite_outside (i : Sid) (b : List Byte) (s : State) :
    OutsideEffect (.snapWrite i b) s (snapWrite i b s) := by
  unfold snapWrite
  split
  · exact { OutsideEffect.rfl' (.snapWrite i b) s with
      snap := fun j hj => Five.get_set_other s.snap b fun e => hj b (by rw [e]) }
  · exact .rfl' _ s

theorem clockTick_outside (s : State) : OutsideEffect .tick s (clockTick s) :=
  { OutsideEffect.rfl' .tick s with now := fun he => absurd rfl he }

theorem runEvent_outside {e : Event} (he : isOutside e = true) {s t : State} (h : runEvent e s = .next t) :
    OutsideEffect e s t := by
  cases e with
  | exec | sender | rst => cases he
  | devTxDone => cases h; exact (devTxDone_onlyDevice s).outside nofun
  | devRxDone a b ok => cases h; exact (devRxDone_onlyDevice a b ok s).outside nofun
  | devModeGlitch v => cases h; exact (devModeGlitch_onlyDevice v s).outside fun hm => devModeGlitch_off hm v
  | devFlag b => cases h; exact (devFlag_onlyDevice b s).outside fun hm => devFlag_off hm b
  | present w => cases h; exact hostPresent_outside w s
  | hbufWrite k b => cases h; exact hostWriteBuf_outside k b s
  | snapWrite i b => cases h; exact snapWrite_outside i b s
  | tick => cases h; exact clockTick_outside s

/-- The port after the host presents a word (10_state.md R23, 60_exceptions.md R288). -/
theorem hostPresent_host (w : CmdWord) (s : State) :
    (hostPresent w s).host = if s.host.busy then s.host else { s.host with busy := true, cmd := w, pos := .e0 } := by
  unfold hostPresent
  split
  · rfl
  · rfl

theorem hostWriteBuf_busy {s : State} (h : s.host.busy = true) (k : Byte) (b : List Byte) :
    (hostWriteBuf k b s).host = s.host := by
  rw [hostWriteBuf, if_pos (.inl h)]

theorem spliceAt_getElem? {dst src : List Byte} {k : Nat} (h : k + src.length ≤ dst.length) (n : Nat) :
    (spliceAt dst k src)[n]? = if k ≤ n ∧ n < k + src.length then src[n - k]? else dst[n]? := by
  unfold spliceAt
  have hk : (dst.take k).length = k := List.length_take_of_le (by omega)
  rw [List.append_assoc, List.getElem?_append, hk, List.getElem?_append, List.getElem?_drop, List.getElem?_take]
  by_cases h1 : n < k
  · simp [h1, show ¬ k ≤ n by omega]
  · by_cases h2 : n < k + src.length
    · simp [h1, h2, show n - k < src.length by omega, show k ≤ n by omega]
    · simp [h1, h2, show ¬ n - k < src.length by omega, show k + src.length + (n - k - src.length) = n by omega]

/-- The bytes of `hbuf` after the host writes some of them on a free port (20_memory.md R85). -/
theorem hostWriteBuf_getElem? {s : State} {k : Byte} {b : List Byte} (hb : s.host.busy = false)
    (hl : s.host.hbuf.length = 255) (hk : k.toNat + b.length ≤ 255) (n : Nat) :
    (hostWriteBuf k b s).host.hbuf[n]? =
      if k.toNat ≤ n ∧ n < k.toNat + b.length then b[n - k.toNat]? else s.host.hbuf[n]? := by
  unfold hostWriteBuf
  rw [if_neg (by simp [hb]; omega)]
  exact spliceAt_getElem? (by omega) n

/-! ## One step of the machine -/

theorem step_nextMove {s : State} {e : Event} {rest : List Event} (h : NextMove s e rest) :
    step s = runEvent e { s with env := rest } := by
  unfold step
  rw [h.bracket]
  simp only [nextEvent, h.env]

theorem step_exec {s t : State} {f : Bool} {rest : List Event} (h : NextMove s (.exec f) rest) (hs : step s = .next t) :
    ExecutorEffect { s with env := rest, busFails := f } t :=
  executorStep_effect ((step_nextMove h).symm.trans hs)

theorem step_sender {s t : State} {i : Sid} {k f : Bool} {rest : List Event} (h : NextMove s (.sender i k f) rest)
    (hs : step s = .next t) : SenderEffect i { s with env := rest, busFails := f } t :=
  senderStep_effect ((step_nextMove h).symm.trans hs)

theorem step_outside {s t : State} {e : Event} {rest : List Event} (ho : isOutside e = true) (h : NextMove s e rest)
    (hs : step s = .next t) : OutsideEffect e { s with env := rest } t :=
  runEvent_outside ho ((step_nextMove h).symm.trans hs)

/-- The fault bit and the log, whatever agent moves. -/
theorem step_logEffect {s t : State} {e : Event} {rest : List Event} (h : NextMove s e rest) (hr : isRst e = false)
    (hs : step s = .next t) : LogEffect s t := by
  by_cases ho : isOutside e = true
  · have he := step_outside ho h hs
    exact ⟨fun hf => ⟨he.busFault.trans hf, he.trace⟩, .inl he.trace⟩
  · cases e with
    | exec f =>
      have he := step_exec h hs
      exact ⟨he.faulted, he.trace⟩
    | sender i k f =>
      have he := step_sender h hs
      exact ⟨he.faulted, he.trace⟩
    | rst => cases hr
    | _ => exact absurd rfl ho

/-- Settles O56: it is the log's part of `LogEffect`. -/
theorem traceGrowsByTheLockHolder : Obligations.TraceGrowsByTheLockHolder := by
  unfold Obligations.TraceGrowsByTheLockHolder
  exact fun s t e rest h hr hs => (step_logEffect h hr hs).trace

/-- Settles O55: `LogEffect` for the bit and the log; SEND tests the bit before its first micro-step. -/
theorem busFaultIsFinal : Obligations.BusFaultIsFinal := by
  unfold Obligations.BusFaultIsFinal
  intro s t e rest h hr hf hs
  obtain ⟨hbit, hlog⟩ := (step_logEffect h hr hs).faulted hf
  refine ⟨hbit, hlog, fun i k f he hp hq => ?_⟩
  subst he
  have hstep : step s = .next (senderSent i Err.busFault.code { s with env := rest, busFails := f }) :=
    (step_nextMove h).trans (senderStep_faulted hp hq hf)
  cases hs.symm.trans hstep
  have hi := Five.get_set_same s.senders i { s.senders.get i with status := Err.busFault.code, phase := .release }
  exact ⟨congrArg Sender.status hi, congrArg Sender.phase hi, rfl⟩

/-- Settles O53, by the agent that moves: the executor, a sender, the reset input, an agent outside the bus. -/
theorem everyElementHasItsWriters : Obligations.EveryElementHasItsWriters := by
  unfold Obligations.EveryElementHasItsWriters
  intro s t e rest h hs
  by_cases ho : isOutside e = true
  · have he := step_outside ho h hs
    have ht := (step_nextMove h).symm.trans hs
    refine ⟨he.cfg, he.env, fun _ => ⟨he.now, he.snap, he.hbuf, fun k b hk => ?_, fun w hw => ?_,
      fun hw => (he.accepted hw).1, fun _ hw => (he.accepted hw).2, fun _ => ⟨he.status, he.res, he.rbuf, he.rlen⟩,
      fun _ => he.x,
      fun _ _ => ⟨he.modeShadow, he.lockOwner, he.seq, he.pe, he.trace, he.busFault, he.senders, he.sel, he.devRst⟩,
      fun _ _ _ => he.senders, fun i k f hk => ?_, .inl he.devRst, he.device⟩⟩
    · subst hk
      cases ht
      exact ⟨fun hb => hostWriteBuf_busy (s := { s with env := rest }) hb k b,
        fun hb hl hk => hostWriteBuf_getElem? (s := { s with env := rest }) hb hl hk⟩
    · subst hw
      cases ht
      exact hostPresent_host w { s with env := rest }
    · subst hk
      cases ho
  · cases e with
    | exec f =>
      have he := step_exec h hs
      exact ⟨he.cfg, he.env, fun _ => ⟨fun _ => he.now, fun i _ => congrArg (·.get i) he.snap, fun _ => he.hbuf, nofun,
        nofun, fun _ => he.cmd, fun hn => absurd rfl (hn f), fun hn => absurd rfl (hn f),
        fun hx => hx.elim (fun hn => absurd rfl (hn f)) he.x, fun hn => absurd rfl (hn f), fun _ _ => he.senders,
        nofun, he.devRst, nofun⟩⟩
    | sender i k f =>
      have he := step_sender h hs
      exact ⟨he.cfg, he.env, fun _ => ⟨fun _ => he.now, fun i _ => congrArg (·.get i) he.snap,
        fun _ => congrArg (·.hbuf) he.host, nofun, nofun, fun _ => congrArg (·.cmd) he.host,
        fun _ _ => ⟨congrArg (·.busy) he.host, congrArg (·.pos) he.host⟩,
        fun _ => ⟨congrArg (·.status) he.host, congrArg (·.res) he.host, congrArg (·.rbuf) he.host,
          congrArg (·.rlen) he.host⟩,
        fun _ => he.x, fun _ hn => absurd rfl (hn i k f), nofun,
        fun j k' f' hj => by cases hj; exact ⟨he.host, he.others⟩, he.devRst, nofun⟩⟩
    | rst =>
      cases (step_nextMove h).symm.trans hs
      exact ⟨rfl, rfl, nofun⟩
    | _ => exact absurd rfl ho

/-! ## Reset -/

/-- Settles O57, part by part: nobody holds the lock, every sender is off and every memory is empty or listed. -/
theorem resetIsSafe : Obligations.ResetIsSafe := by
  unfold Obligations.ResetIsSafe
  exact
    { config := show Config.testVectors.wf = true by decide
      memory :=
        { regWf := show powerOnRegs.wf = true by decide
          regInside := show powerOnRegs.inside 128 = true by decide
          fifoWf := rfl
          fifoInside := rfl }
      buffers :=
        { hbuf := List.length_replicate
          rbuf := List.length_replicate
          peBuf := List.length_replicate
          sBuf := fun i => by cases i <;> rfl
          snap := fun i => by cases i <;> rfl }
      lock :=
        { host := ⟨nofun, nofun⟩
          sender := fun i => by cases i <;> exact ⟨nofun, nofun⟩
          idle := fun _ => rfl
          sending := nofun
          body := nofun
          command := fun h => absurd rfl h
          payload := nofun }
      lines := ⟨fun _ => rfl, rfl, rfl⟩ }

end Sys2Proof.Machine
end

section
namespace Sys2Proof.Machine

/-! What a micro-step leaves alone in the device on a healthy bus, and the bursts the device refuses. -/

/-! ## The frame of the device -/

/-- The device after an access that stores at the address `o`, if any, and moves `n` bytes at the FIFO register: every
other register reads as before, the pointer too if nothing moved there, and every FIFO cell but the `n` cells from the
pointer on, those too unless the store was at the FIFO register (20_memory.md R66 to R71). -/
structure DeviceFrame (o : Option Addr) (n : Nat) (s t : State) : Prop where
  reg : ∀ a, o ≠ some a → ¬ (0 < n ∧ a = s.cfg.aFifoAddrPtr) → t.devReg a = s.devReg a
  fifo : ∀ c, ¬ (o = some s.cfg.aFifo ∧ ∃ k, k < n ∧ s.fifoCell k = c) → t.devFifo c = s.devFifo c

theorem DeviceFrame.of_dev_eq {o : Option Addr} {n : Nat} {s t : State} (h : t.dev = s.dev) : DeviceFrame o n s t :=
  ⟨fun a _ _ => State.devReg_congr (congrArg Device.reg h) a, fun c _ => State.devFifo_congr (congrArg Device.fifo h) c⟩

/-- The frame is a claim about the device alone. -/
theorem DeviceFrame.congr_dev {o : Option Addr} {n : Nat} {s t u : State} (h : DeviceFrame o n s t)
    (e : u.dev = t.dev) : DeviceFrame o n s u :=
  ⟨fun a ha hp => (State.devReg_congr (congrArg Device.reg e) a).trans (h.reg a ha hp),
    fun c hc => (State.devFifo_congr (congrArg Device.fifo e) c).trans (h.fifo c hc)⟩

/-- More bytes may move. -/
theorem DeviceFrame.mono {o : Option Addr} {m n : Nat} {s t : State} (h : DeviceFrame o m s t) (hmn : m ≤ n) :
    DeviceFrame o n s t where
  reg a ha hp := h.reg a ha fun hm => hp ⟨hm.1.trans_le hmn, hm.2⟩
  fifo c hc := h.fifo c fun ⟨ho, k, hk, hkc⟩ => hc ⟨ho, k, hk.trans_le hmn, hkc⟩

/-- An access that stores nothing by the bus has the frame of one that does. -/
theorem DeviceFrame.of_none {n : Nat} {s t : State} (h : DeviceFrame none n s t) (o : Option Addr) :
    DeviceFrame o n s t where
  reg a _ hp := h.reg a nofun hp
  fifo c _ := h.fifo c fun hc => nomatch hc.1

/-- `n` bytes moved at the FIFO register touch the pointer, and not even that if `n` is 0. -/
theorem State.setFifoPtr_frame_of_moves (s : State) (n : Nat) :
    DeviceFrame none n s (s.setFifoPtr (fifoPtrAfter s.cfg.fifoSize s.fifoPtr n)) where
  fifo _ _ := rfl
  reg a _ ha := by
    unfold State.setFifoPtr
    rw [State.devReg_putReg]
    split
    · next e =>
      have hn : n = 0 := by
        by_contra h
        exact ha ⟨Nat.pos_of_ne_zero h, e.symm⟩
      subst hn
      rw [fifoPtrAfter, State.fifoPtr, BitVec.ofNat_toNat, BitVec.setWidth_eq, e]
    · rfl

/-- A read of a register other than the FIFO leaves the device alone (20_memory.md R66). -/
theorem devRead_keepsDevice {a : Addr} {n : Nat} {s t : State} {bs : List Byte} (ha : a ≠ s.cfg.aFifo)
    (h : devRead a n s = .done bs t) : t.dev = s.dev := by
  unfold devRead at h
  rw [if_neg ha] at h
  split at h
  · unfold devRegRead at h
    split at h
    · cases h; rfl
    · cases h; rfl
  · cases h

theorem devRead_frame {a : Addr} {n m : Nat} {s t : State} {bs : List Byte} (hm : a = s.cfg.aFifo → n ≤ m)
    (h : devRead a n s = .done bs t) : DeviceFrame none m s t := by
  by_cases ha : a = s.cfg.aFifo
  · unfold devRead at h
    rw [if_pos ha] at h
    obtain ⟨-, -, rfl⟩ := devFifoRead_done h
    exact (s.setFifoPtr_frame_of_moves n).mono (hm ha)
  · exact .of_dev_eq (devRead_keepsDevice ha h)

/-- A single write changes no register but its own, whatever kind that is (20_memory.md R66, R70, R71). -/
theorem devRegWrite_frame (a : Addr) (v : Byte) (s : State) : DeviceFrame (some a) 0 s (devRegWrite a v s) := by
  have put : ∀ w, DeviceFrame (some a) 0 s (s.putReg a w) := fun w =>
    ⟨fun b hb _ => s.devReg_putReg_other w fun e => hb (congrArg some e), fun _ _ => rfl⟩
  unfold devRegWrite
  split
  · next ha =>
    subst ha
    exact ⟨fun b hb _ => s.devReg_setFlags_other _ fun e => hb (congrArg some e),
      fun c _ => State.devFifo_congr (by simp) c⟩
  · split
    · exact (put _).congr_dev rfl
    · exact put v

/-- A write at the FIFO register stores to the cells from the pointer on and moves the pointer (20_memory.md R68). -/
theorem devFifoWrite_frame {d : List Byte} {s t : State} {bs : List Byte} (h : devFifoWrite d s = .done bs t) :
    DeviceFrame (some s.cfg.aFifo) d.length s t := by
  obtain ⟨hp, -, rfl⟩ := devFifoWrite_done h
  constructor
  · intro a _ ha
    exact (State.setFifoPtr_frame_of_moves _ d.length).reg a nofun ha
  · intro c hc
    exact fifoWrite_other d s.dev.fifo hp fun j hj e => hc ⟨rfl, j, hj, e⟩

theorem devWrite_frame {a : Addr} {d : List Byte} {m : Nat} {s t : State} {bs : List Byte}
    (hm : a = s.cfg.aFifo → d.length ≤ m) (h : devWrite a d s = .done bs t) : DeviceFrame (some a) m s t := by
  unfold devWrite at h
  split at h
  · next ha =>
    have hf := (devFifoWrite_frame h).mono (hm ha)
    rwa [← ha] at hf
  · split at h
    · next v => cases h; exact (devRegWrite_frame a v s).mono (Nat.zero_le m)
    · cases h

/-! ## Micro-steps with one transaction -/

theorem Micro.Sat.imp {m : Micro} {P Q : State → Prop} (h : m.Sat (.everyState P)) (hpq : ∀ t, P t → Q t) :
    m.Sat (.everyState Q) :=
  h.mono hpq (fun _ => hpq) (fun _ => hpq) (fun _ => id) (fun _ => id)

/-- However a micro-step ends, the device is as it was. -/
abbrev Post.keepsDevice (s : State) : Post := .everyState (fun t => t.dev = s.dev)

theorem Micro.Sat.frame {m : Micro} {s : State} (h : m.Sat (.keepsDevice s)) {o : Option Addr} {n : Nat} :
    m.Sat (.everyState (DeviceFrame o n s)) := h.imp fun _ => .of_dev_eq

/-- A read on a healthy bus is the device's part of it, and then what follows. -/
theorem busRead_healthy {a : Addr} {n : Nat} {s : State} {k : List Byte → State → Micro} {P : State → Prop}
    (hs : BusReady s)
    (hk : ∀ bs t, devRead a n s = .done bs t → (k bs (t.closeTxn .rd a bs)).Sat (.everyState P)) :
    ((busRead a n s).andThen k).Sat (.everyState P) := by
  unfold busRead
  rw [hs.busFault, hs.busFails, if_neg Bool.false_ne_true, if_neg hs.owner, if_neg Bool.false_ne_true]
  cases hd : devRead a n s with
  | done bs t => exact hk bs t hd
  | fault f => trivial
  | refused r => trivial

/-- The same for a write. -/
theorem busWrite_healthy {a : Addr} {d : List Byte} {s : State} {k : List Byte → State → Micro} {P : State → Prop}
    (hs : BusReady s)
    (hk : ∀ bs t, devWrite a d s = .done bs t → (k [] (t.closeTxn .wr a d)).Sat (.everyState P)) :
    ((busWrite a d s).andThen k).Sat (.everyState P) := by
  unfold busWrite
  rw [hs.busFault, hs.busFails, if_neg Bool.false_ne_true, if_neg hs.owner, if_neg Bool.false_ne_true]
  cases hd : devWrite a d s with
  | done bs t => exact hk bs t hd
  | fault f => trivial
  | refused r => trivial

/-! What follows the transaction is block-side work in each; that it has the device as it was is checked by `rfl` where
nothing else is given. -/

theorem busRead_frame {a : Addr} {n m : Nat} {s : State} {k : List Byte → State → Micro} {o : Option Addr}
    (hs : BusReady s) (hm : a = s.cfg.aFifo → n ≤ m)
    (hk : ∀ bs t, (k bs t).Sat (.keepsDevice t) := by exact fun _ _ => rfl) :
    ((busRead a n s).andThen k).Sat (.everyState (DeviceFrame o m s)) :=
  busRead_healthy hs fun bs _ h => (hk bs _).imp fun _ e => ((devRead_frame hm h).of_none o).congr_dev e

theorem busWrite_frame {a : Addr} {d : List Byte} {m : Nat} {s : State} {k : List Byte → State → Micro}
    (hs : BusReady s) (hm : a = s.cfg.aFifo → d.length ≤ m)
    (hk : ∀ bs t, (k bs t).Sat (.keepsDevice t) := by exact fun _ _ => rfl) :
    ((busWrite a d s).andThen k).Sat (.everyState (DeviceFrame (some a) m s)) :=
  busWrite_healthy hs fun _ _ h => (hk [] _).imp fun _ e => (devWrite_frame hm h).congr_dev e

/-- A read of a register other than the FIFO. -/
theorem readReg_keepsDevice {a : Addr} {s : State} {k : Byte → State → Micro} (hs : BusReady s) (ha : a ≠ s.cfg.aFifo)
    (hk : ∀ b t, (k b t).Sat (.keepsDevice t) := by exact fun _ _ => rfl) :
    (readReg a s k).Sat (.keepsDevice s) :=
  busRead_healthy hs fun _ t h => (hk _ _).imp fun _ e => e.trans (show t.dev = s.dev from devRead_keepsDevice ha h)

/-- A write of a register other than the FIFO, where `o` names it. -/
theorem writeReg_frame {a : Addr} {v : Byte} {s : State} {k : State → Micro} {o : Option Addr} {m : Nat}
    (hs : BusReady s) (ha : a ≠ s.cfg.aFifo) (ho : o = some a)
    (hk : ∀ t, (k t).Sat (.keepsDevice t) := by exact fun _ => rfl) :
    (writeReg a v s k).Sat (.everyState (DeviceFrame o m s)) :=
  ho ▸ busWrite_frame hs (absurd · ha) fun _ => hk

/-- What a micro-step does before its transaction leaves the bus ready. -/
theorem BusReady.registers {s : State} (h : BusReady s) (p : PeRegs) (l : Bool) :
    BusReady { s with pe := p, irqLatch := l } := ⟨h.owner, h.busFault, h.busFails⟩

theorem ensureStandby_dev (m next : Main) (s : State) : (ensureStandby m next s).dev = s.dev := by
  unfold ensureStandby
  split
  · rfl
  · rfl

theorem State.armWait_dev (s : State) (m : Main) : (s.armWait m).dev = s.dev := by simp

/-! ## The micro-steps of each command -/

/-- A command's step may change of the device what its rule says: the register `storeAddr` names and the `fifoMoves`
cells at the FIFO. -/
abbrev CommandFrame (i : Instr) (s : State) : State → Prop :=
  DeviceFrame (storeAddr s.cfg i s.seq) (fifoMoves s i s.seq) s

/-- What a micro-step's rule stores, read off the position it stands at. -/
theorem storeAddr_at {s : State} {q : Seq} (h : s.seq = q) (i : Instr) : storeAddr s.cfg i s.seq = storeAddr s.cfg i q :=
  congrArg (storeAddr s.cfg i) h

/-- The middle step of set_mode writes the operating mode in every command that changes the mode
(42_mode_controller.md R191). -/
theorem storeAddr_mWr {i : Instr} (h : changesMode i = true) (c : Config) (m : Main) :
    storeAddr c i ⟨m, .mWr⟩ = some c.aOpmode := by
  cases i with
  | setmode | init | transmit | receive => cases m <;> rfl
  | _ => cases h

section
variable {s : State} (hs : BusReady s) (hw : s.cfg.wf = true)
include hs

theorem rdregBody_frame (a : Addr) : (rdregBody a s).Sat (.everyState (CommandFrame (.rdreg a) s)) := by
  unfold rdregBody
  split
  · next hq =>
    have hm : a = s.cfg.aFifo → 1 ≤ fifoMoves s (.rdreg a) s.seq := fun ha => by
      rw [hq]
      exact (if_pos ha).ge
    exact busRead_frame hs hm
  · trivial

theorem wrregBody_frame (a : Addr) (d : Byte) : (wrregBody a d s).Sat (.everyState (CommandFrame (.wrreg a d) s)) := by
  unfold wrregBody
  split
  · next hq =>
    unfold CommandFrame
    rw [hq]
    exact busWrite_frame hs fun ha => (if_pos ha).ge
  · trivial

theorem rdburstBody_frame (a : Addr) (n : Byte) :
    (rdburstBody a n s).Sat (.everyState (CommandFrame (.rdburst a n) s)) := by
  unfold rdburstBody
  split
  · next hq =>
    split
    · exact .of_dev_eq (by rfl)
    · have hm : a = s.cfg.aFifo → n.toNat ≤ fifoMoves s (.rdburst a n) s.seq := fun ha => by
        rw [hq]
        exact (if_pos ha).ge
      exact busRead_frame hs hm
  · trivial

theorem wrburstBody_frame (a : Addr) (n : Byte) :
    (wrburstBody a n s).Sat (.everyState (CommandFrame (.wrburst a n) s)) := by
  unfold wrburstBody
  split
  · next hq =>
    split
    · exact .of_dev_eq (by rfl)
    · next hn =>
      have ho : storeAddr s.cfg (.wrburst a n) s.seq = some a := (storeAddr_at hq _).trans (if_neg hn)
      have hm : a = s.cfg.aFifo → (s.pe.buf.take n.toNat).length ≤ fifoMoves s (.wrburst a n) s.seq := fun ha => by
        rw [hq]
        exact (List.length_take_le ..).trans (if_pos ha).ge
      unfold CommandFrame
      rw [ho]
      exact busWrite_frame hs hm
  · trivial

/-- The field read-modify-write stores in its second micro-step. -/
theorem rmwBody_frame {a : Addr} {mask val : Byte} {pos : Nat} {commit : State → State} {o : Option Addr} {m : Nat}
    (ha : a ≠ s.cfg.aFifo) (ho : s.seq = ⟨.cWr, .none⟩ → o = some a)
    (hc : ∀ t, (commit t).dev = t.dev := by exact fun _ => rfl) :
    (rmwBody a mask pos val commit s).Sat (.everyState (DeviceFrame o m s)) := by
  unfold rmwBody
  split
  · exact (readReg_keepsDevice hs ha).frame
  · next hq => exact writeReg_frame hs ha (ho hq) fun t => hc t
  · trivial

/-- A verified mode transition stores in its second micro-step. -/
theorem setModeStep_frame {target : ModeCode} {retry : Bool} {k : State → Micro} {o : Option Addr} {m : Nat}
    (ha : s.cfg.aOpmode ≠ s.cfg.aFifo) (ho : s.seq.sub = .mWr → o = some s.cfg.aOpmode)
    (hk : ∀ t, (k t).Sat (.keepsDevice t) := by exact fun _ => rfl) :
    (setModeStep target retry s k).Sat (.everyState (DeviceFrame o m s)) := by
  unfold setModeStep
  split
  · refine Micro.Sat.frame (s := s) ?_
    exact readReg_keepsDevice (hs.registers ..) ha fun _ _ => rfl
  · next hq => exact writeReg_frame hs ha (ho hq)
  · refine (readReg_keepsDevice hs ha fun r t => ?_).frame
    split
    · exact hk _
    · split
      · rfl
      · rfl
  · trivial

/-- A completion wait reads the flags at most. -/
theorem waitStep_keepsDevice {bit : Byte} {timeout : Err} {k : State → Micro} (ha : s.cfg.aIrqFlags ≠ s.cfg.aFifo)
    (hk : ∀ t, (k t).Sat (.keepsDevice t) := by exact fun _ => rfl) :
    (waitStep bit timeout s k).Sat (.keepsDevice s) := by
  unfold waitStep
  split
  · refine readReg_keepsDevice hs ha fun f t => ?_
    dsimp only
    split
    · exact hk _
    · split
      · rfl
      · rfl
  · unfold irqStep
    split
    · refine readReg_keepsDevice (hs.registers ..) ha fun f t => ?_
      dsimp only
      split
      · exact hk _
      · rfl
    · split
      · rfl
      · rfl

theorem getBody_keepsDevice {a : Addr} (ha : a ≠ s.cfg.aFifo) (field : Byte → Word32) :
    (getBody a field s).Sat (.keepsDevice s) := by
  unfold getBody
  split
  · exact readReg_keepsDevice hs ha
  · trivial

include hw

theorem getpreBody_frame : (getpreBody s).Sat (.everyState (CommandFrame .getpre s)) := by
  unfold getpreBody
  split
  · exact (readReg_keepsDevice hs (Config.plain_aPreambleMsb hw).1).frame
  · exact (readReg_keepsDevice hs (Config.plain_aPreambleLsb hw).1).frame
  · trivial

theorem getfreqBody_frame : (getfreqBody s).Sat (.everyState (CommandFrame .getfreq s)) := by
  unfold getfreqBody
  split
  · exact (readReg_keepsDevice hs (Config.plain_aFrfMsb hw).1).frame
  · exact (readReg_keepsDevice hs (Config.plain_aFrfMid hw).1).frame
  · exact (readReg_keepsDevice hs (Config.plain_aFrfLsb hw).1).frame
  · trivial

theorem setpreBody_frame (n : BitVec 16) : (setpreBody n s).Sat (.everyState (CommandFrame (.setpre n) s)) := by
  unfold setpreBody
  split
  · next hq => exact writeReg_frame hs (Config.plain_aPreambleMsb hw).1 (storeAddr_at hq _)
  · next hq => exact writeReg_frame hs (Config.plain_aPreambleLsb hw).1 (storeAddr_at hq _)
  · trivial

theorem setfreqBody_frame (f : Word32) : (setfreqBody f s).Sat (.everyState (CommandFrame (.setfreq f) s)) := by
  unfold setfreqBody
  split
  · next hq => exact writeReg_frame hs (Config.plain_aFrfMsb hw).1 (storeAddr_at hq _)
  · next hq => exact writeReg_frame hs (Config.plain_aFrfMid hw).1 (storeAddr_at hq _)
  · next hq => exact writeReg_frame hs (Config.plain_aFrfLsb hw).1 (storeAddr_at hq _)
  · trivial

theorem setpwrBody_frame (p dbm : Byte) : (setpwrBody p s).Sat (.everyState (CommandFrame (.setpwr dbm) s)) := by
  unfold setpwrBody
  split
  · next hq => exact writeReg_frame hs (Config.plain_aPaConfig hw).1 (storeAddr_at hq _)
  · next hq => exact writeReg_frame hs (Config.plain_aPaDac hw).1 (storeAddr_at hq _)
  · trivial

/-- A verified mode transition inside a command that changes the mode. -/
theorem setModeStep_commandFrame {i : Instr} (hi : changesMode i = true) {target : ModeCode} {retry : Bool}
    {k : State → Micro} (hk : ∀ t, (k t).Sat (.keepsDevice t) := by exact fun _ => rfl) :
    (setModeStep target retry s k).Sat (.everyState (CommandFrame i s)) :=
  setModeStep_frame hs (Config.plain_aOpmode hw).1
    (fun hb => by rw [← storeAddr_mWr hi s.cfg s.seq.main, ← hb]) hk

theorem setmodeBody_frame (m : ModeCode) : (setmodeBody m s).Sat (.everyState (CommandFrame (.setmode m) s)) := by
  unfold setmodeBody
  split
  · exact setModeStep_commandFrame hs hw rfl
  · trivial

/-- INIT, apart from its reset pulse (60_exceptions.md R287). -/
theorem initBody_frame (hq : s.seq ≠ ⟨.iRst, .none⟩) : (initBody s).Sat (.everyState (CommandFrame .init s)) := by
  have hmode := (Config.plain_aOpmode hw).1
  unfold initBody
  split
  case h_1 h => exact absurd h hq
  case h_2 h => exact writeReg_frame hs hmode (storeAddr_at h _)
  case h_3 =>
    refine (readReg_keepsDevice hs hmode fun r t => ?_).frame
    split
    · rfl
    · rfl
  case h_4 h => exact writeReg_frame hs (Config.plain_aFifoTxBase hw).1 (storeAddr_at h _)
  case h_5 h => exact writeReg_frame hs (Config.plain_aFifoRxBase hw).1 (storeAddr_at h _)
  case h_6 => exact setModeStep_commandFrame hs hw rfl
  case h_7 => trivial

theorem peTransmit_frame (len : BitVec 16) : (peTransmit s).Sat (.everyState (CommandFrame (.transmit len) s)) := by
  have hflags := Config.flags_ne_fifo hw
  unfold peTransmit
  split
  case h_1 => exact .of_dev_eq (ensureStandby_dev ..)
  case h_2 => exact setModeStep_commandFrame hs hw rfl
  case h_3 => exact (readReg_keepsDevice hs (Config.plain_aFifoTxBase hw).1).frame
  case h_4 h => exact writeReg_frame hs (Config.plain_aFifoAddrPtr hw).1 (storeAddr_at h _)
  case h_5 h =>
    unfold CommandFrame
    rw [h]
    exact busWrite_frame hs fun _ => List.length_take_le ..
  case h_6 h => exact writeReg_frame hs (Config.plain_aPayloadLength hw).1 (storeAddr_at h _)
  case h_7 h => exact writeReg_frame hs hflags (storeAddr_at h _)
  case h_8 => exact setModeStep_commandFrame hs hw rfl fun t => t.armWait_dev _
  case h_9 => exact (waitStep_keepsDevice hs hflags).frame
  case h_10 h => exact writeReg_frame hs hflags (storeAddr_at h _)
  case h_11 => exact setModeStep_commandFrame hs hw rfl
  case h_12 => trivial

theorem peReceive_frame : (peReceive s).Sat (.everyState (CommandFrame .receive s)) := by
  have hflags := Config.flags_ne_fifo hw
  unfold peReceive
  split
  case h_1 => exact .of_dev_eq (ensureStandby_dev ..)
  case h_2 => exact setModeStep_commandFrame hs hw rfl
  case h_3 => exact .of_dev_eq (by rfl)
  case h_4 => exact setModeStep_commandFrame hs hw rfl fun t => t.armWait_dev _
  case h_5 => exact (waitStep_keepsDevice hs hflags).frame
  case h_6 => exact .of_dev_eq (by rfl)
  case h_7 => exact (readReg_keepsDevice hs (reads_aRxNbBytes hw).1).frame
  case h_8 => exact (readReg_keepsDevice hs (reads_aFifoRxCurrent hw).1).frame
  case h_9 h => exact writeReg_frame hs (Config.plain_aFifoAddrPtr hw).1 (storeAddr_at h _)
  case h_10 h =>
    split
    · exact .of_dev_eq (by rfl)
    · have hm : s.pe.len.toNat ≤ fifoMoves s .receive s.seq := by rw [h]; exact le_rfl
      exact busRead_frame hs fun _ => hm
  case h_11 h => exact writeReg_frame hs hflags (storeAddr_at h _)
  case h_12 =>
    refine setModeStep_commandFrame hs hw rfl fun t => ?_
    split
    · rfl
    · rfl
  case h_13 => trivial

theorem transmitBody_frame (len : BitVec 16) (r : Word32) :
    ((peTransmit s).onDone (fun _ t => .done r t)).Sat (.everyState (CommandFrame (.transmit len) s)) :=
  Micro.onDone_sat (peTransmit_frame hs hw len)

theorem receiveBody_frame :
    ((peReceive s).onDone (fun _ t => .done (t.pe.len.setWidth 32) (t.deliver t.payload t.pe.len))).Sat
      (.everyState (CommandFrame .receive s)) :=
  Micro.onDone_sat ((peReceive_frame hs hw).mono (fun _ => id) (fun _ _ h => h.congr_dev rfl) (fun _ _ => id)
    (fun _ => id) (fun _ => id))

end

/-- The envelope adds nothing to what the body does to the device. -/
theorem Envelope.exec_frame {v : Envelope} {o : Option Addr} {n : Nat} {s t : State} (hp : s.host.pos = .e3)
    (hb : (v.body s).Sat (.everyState (DeviceFrame o n s))) (h : v.exec s = .next t)
    (he : ∀ e u, (v.onErr e u).dev = u.dev := by exact fun _ _ => rfl) : DeviceFrame o n s t := by
  rw [v.exec_body s hp] at h
  cases hm : v.body s with
  | cont u => rw [hm] at h hb; cases h; exact hb
  | done r u => rw [hm] at h hb; cases h; exact DeviceFrame.congr_dev hb rfl
  | raise e u => rw [hm] at h hb; cases h; exact DeviceFrame.congr_dev hb (he e _)
  | fault f => rw [hm] at h; cases h
  | refused r => rw [hm] at h; cases h

theorem rdburstOnErr_dev (e : Err) (t : State) : (rdburstOnErr e t).dev = t.dev := by cases e <;> rfl

/-- One micro-step of a command's body on a healthy bus. -/
theorem exec_commandFrame {i : Instr} {s t : State} {q : Seq} (hw : s.cfg.wf = true) (hi : usesEnvelope i = true)
    (hq : (i, q) ≠ (.init, ⟨.iRst, .none⟩)) (hs : HostAt s q) (h : exec i s = .next t) : CommandFrame i s t := by
  have hb := hs.ready
  have h1 := (Config.plain_aModemConfig1 hw).1
  have h2 := (Config.plain_aModemConfig2 hw).1
  cases i with
  | rdreg a => exact Envelope.exec_frame hs.pos (rdregBody_frame hb a) h
  | wrreg a d => exact Envelope.exec_frame hs.pos (wrregBody_frame hb a d) h
  | rdburst a n => exact Envelope.exec_frame hs.pos (rdburstBody_frame hb a n) h rdburstOnErr_dev
  | wrburst a n => exact Envelope.exec_frame hs.pos (wrburstBody_frame hb a n) h
  | setsf v => exact Envelope.exec_frame hs.pos (rmwBody_frame hb h2 fun e => storeAddr_at e _) h
  | setbw v => exact Envelope.exec_frame hs.pos (rmwBody_frame hb h1 fun e => storeAddr_at e _) h
  | setcr v => exact Envelope.exec_frame hs.pos (rmwBody_frame hb h1 fun e => storeAddr_at e _) h
  | setcrc v => exact Envelope.exec_frame hs.pos (rmwBody_frame hb h2 fun e => storeAddr_at e _) h
  | setpre n => exact Envelope.exec_frame hs.pos (setpreBody_frame hb hw n) h
  | setfreq f => exact Envelope.exec_frame hs.pos (setfreqBody_frame hb hw f) h
  | setpwr d => exact Envelope.exec_frame hs.pos (setpwrBody_frame hb hw _ d) h
  | getsf => exact Envelope.exec_frame hs.pos (getBody_keepsDevice hb h2 _).frame h
  | getbw => exact Envelope.exec_frame hs.pos (getBody_keepsDevice hb h1 _).frame h
  | getcr => exact Envelope.exec_frame hs.pos (getBody_keepsDevice hb h1 _).frame h
  | getcrc => exact Envelope.exec_frame hs.pos (getBody_keepsDevice hb h2 _).frame h
  | getpre => exact Envelope.exec_frame hs.pos (getpreBody_frame hb hw) h
  | getfreq => exact Envelope.exec_frame hs.pos (getfreqBody_frame hb hw) h
  | setmode m => exact Envelope.exec_frame hs.pos (setmodeBody_frame hb hw m) h
  | init =>
    have hpulse : s.seq ≠ ⟨.iRst, .none⟩ := fun e => hq (congrArg (Prod.mk _) (hs.seq.symm.trans e))
    exact Envelope.exec_frame hs.pos (initBody_frame hb hw hpulse) h
  | transmit len => exact Envelope.exec_frame hs.pos (transmitBody_frame hb hw len _) h
  | receive => exact Envelope.exec_frame hs.pos (receiveBody_frame hb hw) h
  | ismode | schstart | busRd | busWr => cases hi

/-- Settles O51: every micro-step of a body makes at most one access, whose frame `devRead_frame` and `devWrite_frame`
give. -/
theorem frameOfTheDevice : Obligations.FrameOfTheDevice := by
  unfold Obligations.FrameOfTheDevice
  intro i s t q hw hi hq hs h
  have hf := exec_commandFrame hw hi hq hs h
  rw [CommandFrame, hs.seq] at hf
  exact ⟨hf.reg, hf.fifo⟩

/-! ## Bursts off the FIFO register -/

theorem busRead_offFifo {a : Addr} {n : Nat} {s : State} (hs : BusReady s) (ha : a ≠ s.cfg.aFifo) (hn : 2 ≤ n) :
    busRead a n s = .refused .burstOffFifo := by
  have hd : devRead a n s = .refused .burstOffFifo := by
    unfold devRead
    rw [if_neg ha, if_neg (by omega)]
  simp [busRead, hs.busFault, hs.owner, hs.busFails, hd]

theorem busWrite_offFifo {a : Addr} {d : List Byte} {s : State} (hs : BusReady s) (ha : a ≠ s.cfg.aFifo)
    (hn : 2 ≤ d.length) : busWrite a d s = .refused .burstOffFifo := by
  have hd : devWrite a d s = .refused .burstOffFifo := by
    unfold devWrite
    rw [if_neg ha]
    split
    · simp at hn
    · rfl
  simp [busWrite, hs.busFault, hs.owner, hs.busFails, hd]

/-- A refused micro-step is refused as it stands. -/
theorem Envelope.exec_refused {v : Envelope} {s : State} {r : Refusal} (hp : s.host.pos = .e3)
    (hb : v.body s = .refused r) : v.exec s = .refused r := by
  rw [v.exec_body s hp, hb]

/-- Settles O14: the device refuses the transaction, and each of the four operations passes the refusal on. -/
theorem burstOffFifoRefused : Obligations.BurstOffFifoRefused := by
  unfold Obligations.BurstOffFifoRefused
  refine fun s a ha => ⟨fun n hs hl hn => ?_, fun ho hb hf => ⟨fun hn => ?_, fun hn => ?_⟩⟩
  · have hn0 : n ≠ 0 := by rintro rfl; simp at hn
    have hlen : 2 ≤ (s.pe.buf.take n.toNat).length := by
      rw [List.length_take, hl]
      omega
    constructor
    · have hbody : rdburstBody a n s = .refused .burstOffFifo := by
        simp only [rdburstBody, hs.seq, if_neg hn0, busRead_offFifo hs.ready ha hn, Txn.andThen]
      exact Envelope.exec_refused hs.pos hbody
    · have hbody : wrburstBody a n s = .refused .burstOffFifo := by
        simp only [wrburstBody, hs.seq, if_neg hn0, busWrite_offFifo hs.ready ha hlen, Txn.andThen]
      exact Envelope.exec_refused hs.pos hbody
  · have hw : s.busPort.want ≠ 0 := by intro e; simp [e] at hn
    simp only [exec, execBusRd, if_neg hw, busRead_offFifo ⟨ho, hb, hf⟩ ha hn, busPortEnd]
  · have hw : s.busPort.out ≠ [] := by intro e; simp [e] at hn
    simp only [exec, execBusWr, if_neg hw, busWrite_offFifo ⟨ho, hb, hf⟩ ha hn, busPortEnd]

/-! ## The snapshot -/

theorem snapWrite_of_length {i : Sid} {bytes : List Byte} {s : State} (h : bytes.length = s.cfg.recLen.get i) :
    snapWrite i bytes s = { s with snap := s.snap.set i bytes } := if_pos h

/-- Settles O48: the move is `snapWrite`, whose length test the record passes. -/
theorem snapWriteReplacesOneRecord : Obligations.SnapWriteReplacesOneRecord := by
  unfold Obligations.SnapWriteReplacesOneRecord
  intro s i bytes rest h hl
  have hw := snapWrite_of_length (s := { s with env := rest }) hl
  exact (step_nextMove h).trans (congrArg Host.Outcome.next hw)

end Sys2Proof.Machine
end

section
namespace Sys2Proof
open Machine

/-! The encoding: the decoder and the encoder undo each other, the legal words, and the step that runs what is decoded. -/

/-! ## The two parts of a command word -/

@[simp] theorem cmdOp_cmdWord (op : Byte) (arg : Word32) : cmdOp (cmdWord op arg) = op :=
  BitVec.extractLsb'_append_eq_left

@[simp] theorem cmdArg_cmdWord (op : Byte) (arg : Word32) : cmdArg (cmdWord op arg) = arg :=
  BitVec.extractLsb'_append_eq_right

@[simp] theorem cmdWord_cmdOp_cmdArg (w : CmdWord) : cmdWord (cmdOp w) (cmdArg w) = w :=
  BitVec.extractLsb'_append_extractLsb' (w := 8)

theorem cmdWord_inj {op op' : Byte} {arg arg' : Word32} :
    cmdWord op arg = cmdWord op' arg' ↔ op = op' ∧ arg = arg' :=
  ⟨fun h => ⟨by simpa using congrArg cmdOp h, by simpa using congrArg cmdArg h⟩, by rintro ⟨rfl, rfl⟩; rfl⟩

theorem cmdWord_and (op op' : Byte) (arg arg' : Word32) :
    cmdWord op arg &&& cmdWord op' arg' = cmdWord (op &&& op') (arg &&& arg') :=
  BitVec.and_append

/-! ## The sub-formats of the operand word (30_encoding.md R111) -/

/-- A sub-format: the operand words with no reserved bit set are exactly the operands' words, one each. -/
structure FieldCodec {α : Type} (reserved : Word32) (enc : α → Word32) (dec : Word32 → α) : Prop where
  fits : ∀ v, enc v &&& reserved = 0
  dec_enc : ∀ v, dec (enc v) = v
  enc_dec : ∀ a, a &&& reserved = 0 → enc (dec a) = a

theorem and_eq_zero_iff_getLsbD {w : Nat} (a m : BitVec w) :
    a &&& m = 0 ↔ ∀ k < w, m.getLsbD k = true → a.getLsbD k = false := by
  constructor
  · intro h k _ hm
    simpa [hm] using congrArg (·.getLsbD k) h
  · intro h
    refine BitVec.eq_of_getLsbD_eq fun k hk => ?_
    cases hm : m.getLsbD k
    · simp [hm]
    · simp [h k hk hm]

theorem getLsbD_allOnes_shiftLeft {w n k : Nat} (h : k < w) :
    (BitVec.allOnes w <<< n).getLsbD k = decide (n ≤ k) := by
  have hk : k - n < w := by omega
  rw [BitVec.getLsbD_shiftLeft, BitVec.getLsbD_allOnes]
  simp [h, hk, ← decide_not]

/-- One field in the low `n` bits, every higher bit reserved. -/
theorem lowCodec (n : Nat) (hn : n ≤ 32) :
    FieldCodec (BitVec.allOnes 32 <<< n) (fun v : BitVec n => v.setWidth 32) (fun a => a.extractLsb' 0 n) where
  fits v := by
    refine (and_eq_zero_iff_getLsbD _ _).2 fun k hk hm => ?_
    rw [getLsbD_allOnes_shiftLeft hk] at hm
    simp [BitVec.getLsbD_setWidth, BitVec.getLsbD_of_ge v k (of_decide_eq_true hm)]
  dec_enc v := (BitVec.extractLsb'_setWidth_of_le (by omega)).trans BitVec.extractLsb'_eq_self
  enc_dec a h := by
    refine BitVec.eq_of_getLsbD_eq fun k hk => ?_
    have hr := (and_eq_zero_iff_getLsbD _ _).1 h k hk
    rw [getLsbD_allOnes_shiftLeft hk] at hr
    rw [BitVec.getLsbD_setWidth, BitVec.getLsbD_extractLsb', Nat.zero_add]
    by_cases hkn : k < n
    · simp [hk, hkn]
    · simp [hkn, hr (by simpa using hkn)]

theorem codecC1 : FieldCodec reservedC1 (fun v : BitVec 1 => v.setWidth 32) (fun a => a.extractLsb' 0 1) :=
  lowCodec 1 (by decide)
theorem codecC3 : FieldCodec reservedC3 (fun v : ModeCode => v.setWidth 32) (fun a => a.extractLsb' 0 3) :=
  lowCodec 3 (by decide)
theorem codecC5 : FieldCodec reservedC5 (fun v : BitVec 5 => v.setWidth 32) (fun a => a.extractLsb' 0 5) :=
  lowCodec 5 (by decide)
theorem codecC8 : FieldCodec reservedC8 (fun v : Byte => v.setWidth 32) (fun a => a.extractLsb' 0 8) :=
  lowCodec 8 (by decide)
theorem codecC16 : FieldCodec reservedC16 (fun v : BitVec 16 => v.setWidth 32) (fun a => a.extractLsb' 0 16) :=
  lowCodec 16 (by decide)
theorem codecCA : FieldCodec reservedCA (fun v : Addr => v.setWidth 32) argAddr := lowCodec 7 (by decide)

/-- C0: no operand, the whole word reserved. -/
theorem codecC0 : FieldCodec reservedC0 (fun _ : Unit => 0) (fun _ => ()) where
  fits _ := rfl
  dec_enc _ := rfl
  enc_dec _ h := h.symm.trans BitVec.and_allOnes

/-- C32: the operand is the whole word, nothing reserved. -/
theorem codecC32 : FieldCodec reservedC32 id id where
  fits _ := BitVec.and_zero
  dec_enc _ := rfl
  enc_dec _ _ := rfl

theorem getLsbD_reservedCW : ∀ k < 32, reservedCW.getLsbD k = decide (k = 7 ∨ 16 ≤ k) := by decide

theorem getLsbD_argAddrHigh (a : Addr) (d : Byte) {k : Nat} (hk : k < 32) :
    (argAddrHigh a d).getLsbD k = if k < 7 then a.getLsbD k else !decide (k = 7) && d.getLsbD (k - 8) := by
  rw [argAddrHigh, BitVec.getLsbD_setWidth, BitVec.getLsbD_append, BitVec.getLsbD_append]
  have h7 : ¬k < 7 → (k - 7 < 1 ↔ k = 7) := by omega
  have h8 : k - 7 - 1 = k - 8 := by omega
  grind

/-- CW and CB: the address in bits 6:0, a byte in bits 15:8; bit 7 and the high half reserved. -/
theorem codecCW :
    FieldCodec reservedCW (fun p : Addr × Byte => argAddrHigh p.1 p.2) (fun a => (argAddr a, argHigh a)) where
  fits p := by
    refine (and_eq_zero_iff_getLsbD _ _).2 fun k hk hm => ?_
    rw [getLsbD_reservedCW k hk] at hm
    rw [getLsbD_argAddrHigh _ _ hk]
    obtain rfl | h := of_decide_eq_true hm
    · rfl
    · rw [if_neg (by omega), BitVec.getLsbD_of_ge p.2 _ (by omega), Bool.and_false]
  dec_enc p := by
    refine Prod.ext (BitVec.eq_of_getLsbD_eq fun k hk => ?_) (BitVec.eq_of_getLsbD_eq fun k hk => ?_)
    · rw [argAddr, BitVec.getLsbD_extractLsb', getLsbD_argAddrHigh _ _ (by omega)]
      simp [hk]
    · rw [argHigh, BitVec.getLsbD_extractLsb', getLsbD_argAddrHigh _ _ (by omega), if_neg (by omega)]
      simp [hk]
      omega
  enc_dec a h := by
    refine BitVec.eq_of_getLsbD_eq fun k hk => ?_
    have hr := (and_eq_zero_iff_getLsbD _ _).1 h k hk
    rw [getLsbD_reservedCW k hk] at hr
    rw [getLsbD_argAddrHigh _ _ hk, argAddr, argHigh, BitVec.getLsbD_extractLsb', BitVec.getLsbD_extractLsb']
    grind

theorem codecCB :
    FieldCodec reservedCB (fun p : Addr × Byte => argAddrHigh p.1 p.2) (fun a => (argAddr a, argHigh a)) :=
  codecCW

/-! ## The rows of the command table (30_encoding.md R110) -/

/-- The encoder gives back the word from which a row builds an instruction. -/
def CmdRow.Encodes (r : CmdRow) : Prop :=
  ∀ a, a &&& r.reserved = 0 → encodeCmd (r.build a) = some (cmdWord r.op a)

theorem FieldCodec.encodes {α : Type} {reserved : Word32} {enc : α → Word32} {dec : Word32 → α}
    (hc : FieldCodec reserved enc dec) {op : Byte} (c : α → Instr)
    (h : ∀ v, encodeCmd (c v) = some (cmdWord op (enc v))) : CmdRow.Encodes ⟨op, reserved, fun a => c (dec a)⟩ :=
  fun a ha => (h (dec a)).trans (congrArg (some ∘ cmdWord op) (hc.enc_dec a ha))

theorem riRows_encodes : ∀ r ∈ riRows, r.Encodes := by
  simp only [riRows, List.forall_mem_cons]
  exact ⟨codecCA.encodes .rdreg fun _ => rfl,
    codecCW.encodes (fun p => .wrreg p.1 p.2) fun _ => rfl,
    codecCB.encodes (fun p => .rdburst p.1 p.2) fun _ => rfl,
    codecCB.encodes (fun p => .wrburst p.1 p.2) fun _ => rfl, List.forall_mem_nil _⟩

theorem setterRows_encodes : ∀ r ∈ setterRows, r.Encodes := by
  simp only [setterRows, List.forall_mem_cons]
  exact ⟨codecC8.encodes .setsf fun _ => rfl, codecC8.encodes .setbw fun _ => rfl,
    codecC8.encodes .setcr fun _ => rfl, codecC1.encodes .setcrc fun _ => rfl,
    codecC16.encodes .setpre fun _ => rfl, codecC32.encodes .setfreq fun _ => rfl,
    codecC8.encodes .setpwr fun _ => rfl, List.forall_mem_nil _⟩

theorem getterRows_encodes : ∀ r ∈ getterRows, r.Encodes := by
  simp only [getterRows, List.forall_mem_cons]
  exact ⟨codecC0.encodes (fun _ => .getsf) fun _ => rfl, codecC0.encodes (fun _ => .getbw) fun _ => rfl,
    codecC0.encodes (fun _ => .getcr) fun _ => rfl, codecC0.encodes (fun _ => .getcrc) fun _ => rfl,
    codecC0.encodes (fun _ => .getpre) fun _ => rfl, codecC0.encodes (fun _ => .getfreq) fun _ => rfl,
    List.forall_mem_nil _⟩

theorem controlRows_encodes : ∀ r ∈ controlRows, r.Encodes := by
  simp only [controlRows, List.forall_mem_cons]
  exact ⟨codecC3.encodes .setmode fun _ => rfl, codecC3.encodes .ismode fun _ => rfl,
    codecC0.encodes (fun _ => .init) fun _ => rfl, codecC16.encodes .transmit fun _ => rfl,
    codecC0.encodes (fun _ => .receive) fun _ => rfl, codecC5.encodes .schstart fun _ => rfl,
    List.forall_mem_nil _⟩

theorem cmdRows_encodes : ∀ r ∈ cmdRows, r.Encodes := by
  simp only [cmdRows, List.forall_mem_append]
  exact ⟨⟨⟨riRows_encodes, setterRows_encodes⟩, getterRows_encodes⟩, controlRows_encodes⟩

/-! ## The decoder of command words -/

/-- No two rows share an opcode. -/
theorem cmdRows_nodup_op : (cmdRows.map CmdRow.op).Nodup := by decide

theorem find?_op_eq_some {r : CmdRow} (hr : r ∈ cmdRows) : cmdRows.find? (fun q => q.op == r.op) = some r := by
  cases hq : cmdRows.find? (fun q => q.op == r.op) with
  | none => simpa using List.find?_eq_none.1 hq r hr
  | some q =>
    have hop : q.op = r.op := by simpa using List.find?_some hq
    exact congrArg some (List.inj_on_of_nodup_map cmdRows_nodup_op (List.mem_of_find?_eq_some hq) hr hop)

/-- The legal words and their meaning, row by row. -/
theorem decodeCmd_eq_ok_iff_row {w : CmdWord} {i : Instr} :
    decodeCmd w = .ok i ↔
      ∃ r ∈ cmdRows, r.op = cmdOp w ∧ cmdArg w &&& r.reserved = 0 ∧ r.build (cmdArg w) = i := by
  unfold decodeCmd
  constructor
  · intro h
    split at h
    · cases h
    · next r hr =>
      split at h
      · next hz =>
        exact ⟨r, List.mem_of_find?_eq_some hr, by simpa using List.find?_some hr, hz, Except.ok.inj h⟩
      · cases h
  · rintro ⟨r, hr, hop, hz, rfl⟩
    rw [← hop, find?_op_eq_some hr]
    exact if_pos hz

theorem FieldCodec.decodes {α : Type} {reserved : Word32} {enc : α → Word32} {dec : Word32 → α}
    (hc : FieldCodec reserved enc dec) {op : Byte} (c : α → Instr)
    (h : cmdRows.find? (fun q => q.op == op) = some ⟨op, reserved, fun a => c (dec a)⟩) (v : α) :
    decodeCmd (cmdWord op (enc v)) = .ok (c v) := by
  refine decodeCmd_eq_ok_iff_row.2 ⟨_, List.mem_of_find?_eq_some h, by simp, ?_, ?_⟩
  · simpa using hc.fits v
  · simp [hc.dec_enc]

/-- Instruction by instruction, through the codec of its sub-format. -/
theorem decodeCmd_of_encodeCmd {i : Instr} {w : CmdWord} (h : encodeCmd i = some w) : decodeCmd w = .ok i := by
  cases i <;> cases h
  case rdreg a => exact codecCA.decodes .rdreg rfl a
  case wrreg a d => exact codecCW.decodes (fun p => .wrreg p.1 p.2) rfl (a, d)
  case rdburst a n => exact codecCB.decodes (fun p => .rdburst p.1 p.2) rfl (a, n)
  case wrburst a n => exact codecCB.decodes (fun p => .wrburst p.1 p.2) rfl (a, n)
  case setsf v | setbw v | setcr v | setpwr v => exact codecC8.decodes _ rfl v
  case setcrc v => exact codecC1.decodes .setcrc rfl v
  case setpre v | transmit v => exact codecC16.decodes _ rfl v
  case setfreq v => exact codecC32.decodes .setfreq rfl v
  case setmode v | ismode v => exact codecC3.decodes _ rfl v
  case schstart v => exact codecC5.decodes .schstart rfl v
  case getsf | getbw | getcr | getcrc | getpre | getfreq | init | receive => exact codecC0.decodes (fun _ => _) rfl ()

/-- Through the row that decoded the word. -/
theorem encodeCmd_of_decodeCmd {w : CmdWord} {i : Instr} (h : decodeCmd w = .ok i) : encodeCmd i = some w := by
  obtain ⟨r, hr, hop, hz, rfl⟩ := decodeCmd_eq_ok_iff_row.1 h
  rw [cmdRows_encodes r hr _ hz, hop, cmdWord_cmdOp_cmdArg]

/-! ## The decoder of bus address bytes (30_encoding.md R100, R101) -/

theorem decodeBus_readAddrByte (a : Addr) : decodeBus (readAddrByte a) = .busRd a := by
  have hd : (readAddrByte a).getLsbD 7 = false := BitVec.getLsbD_append
  have ha : (readAddrByte a).extractLsb' 0 7 = a := BitVec.extractLsb'_append_eq_right
  rw [decodeBus, hd, ha]
  rfl

theorem decodeBus_writeAddrByte (a : Addr) : decodeBus (writeAddrByte a) = .busWr a := by
  have hd : (writeAddrByte a).getLsbD 7 = true := BitVec.getLsbD_append
  have ha : (writeAddrByte a).extractLsb' 0 7 = a := BitVec.extractLsb'_append_eq_right
  rw [decodeBus, hd, ha]
  rfl

theorem addrByte_cases (b : Byte) : (∃ a, b = readAddrByte a) ∨ ∃ a, b = writeAddrByte a := by
  have hb : b.extractLsb' 7 1 ++ b.extractLsb' 0 7 = b := BitVec.extractLsb'_append_extractLsb' (w := 1)
  obtain h | h := BitVec.eq_zero_or_eq_one (b.extractLsb' 7 1)
  · exact .inl ⟨b.extractLsb' 0 7, hb.symm.trans (congrArg (· ++ b.extractLsb' 0 7) h)⟩
  · exact .inr ⟨b.extractLsb' 0 7, hb.symm.trans (congrArg (· ++ b.extractLsb' 0 7) h)⟩

/-! ## Table words -/

/-- Every instruction is a host command, encoded in 40 bits, or a bus transaction, encoded in 8. -/
theorem encode_cases (i : Instr) :
    (∃ w, encodeCmd i = some w ∧ encode i = ⟨40, w.toNat⟩) ∨ ∃ b, decodeBus b = i ∧ encode i = ⟨8, b.toNat⟩ := by
  cases i
  case busRd a => exact .inr ⟨_, decodeBus_readAddrByte a, rfl⟩
  case busWr a => exact .inr ⟨_, decodeBus_writeAddrByte a, rfl⟩
  all_goals exact .inl ⟨_, rfl, rfl⟩

theorem encode_of_encodeCmd {i : Instr} {w : CmdWord} (h : encodeCmd i = some w) : encode i = ⟨40, w.toNat⟩ := by
  rw [encode, h]

theorem encode_decodeBus (b : Byte) : encode (decodeBus b) = ⟨8, b.toNat⟩ := by
  obtain ⟨a, rfl⟩ | ⟨a, rfl⟩ := addrByte_cases b
  · rw [decodeBus_readAddrByte]; rfl
  · rw [decodeBus_writeAddrByte]; rfl

/-- The words that decode, by their number of bits. -/
theorem decodeTableWord_eq_some_iff {n w : Nat} {i : Instr} :
    decodeTableWord n w = some i ↔
      (∃ c : CmdWord, n = 40 ∧ w = c.toNat ∧ decodeCmd c = .ok i) ∨
        ∃ b : Byte, n = 8 ∧ w = b.toNat ∧ decodeBus b = i := by
  constructor
  · unfold decodeTableWord
    intro h
    split at h
    · next hn =>
      refine .inl ⟨BitVec.ofNat 40 w, hn.1, (Nat.mod_eq_of_lt hn.2).symm, ?_⟩
      split at h
      · next hd => rw [hd, Option.some.inj h]
      · cases h
    · split at h
      · next hn => exact .inr ⟨BitVec.ofNat 8 w, hn.1, (Nat.mod_eq_of_lt hn.2).symm, Option.some.inj h⟩
      · cases h
  · rintro (⟨c, rfl, rfl, hd⟩ | ⟨b, rfl, rfl, rfl⟩)
    · simp [decodeTableWord, c.isLt, hd]
    · simp [decodeTableWord, b.isLt]

/-- Settles O1: a command's word decodes to it by its sub-format's codec, a transaction's byte by its direction bit. -/
theorem decodeInvertsEncode : Obligations.DecodeInvertsEncode := by
  unfold Obligations.DecodeInvertsEncode
  intro i _
  obtain ⟨w, hw, he⟩ | ⟨b, hb, he⟩ := encode_cases i <;> rw [he]
  · exact decodeTableWord_eq_some_iff.2 (.inl ⟨w, rfl, rfl, decodeCmd_of_encodeCmd hw⟩)
  · exact decodeTableWord_eq_some_iff.2 (.inr ⟨b, rfl, rfl, hb⟩)

/-- Settles O2: the row that decoded the word encodes what it built back to that word. -/
theorem encodeInvertsDecode : Obligations.EncodeInvertsDecode := by
  unfold Obligations.EncodeInvertsDecode
  intro n w i h
  obtain ⟨c, rfl, rfl, hd⟩ | ⟨b, rfl, rfl, rfl⟩ := decodeTableWord_eq_some_iff.1 h
  · exact encode_of_encodeCmd (encodeCmd_of_decodeCmd hd)
  · exact encode_decodeBus b

/-! ## The legal words -/

/-- A row's match and mask: the opcode whole, and the reserved bits of the operand word at 0. -/
def CmdRow.matchMask (r : CmdRow) : CmdWord × CmdWord := (cmdWord r.op 0, cmdWord 0xFF r.reserved)

theorem tableRows_eq : tableRows = cmdRows.map CmdRow.matchMask := rfl

theorem and_mask_eq_match_iff (r : CmdRow) (w : CmdWord) :
    w &&& r.matchMask.2 = r.matchMask.1 ↔ r.op = cmdOp w ∧ cmdArg w &&& r.reserved = 0 := by
  have h : w &&& r.matchMask.2 = cmdWord (cmdOp w) (cmdArg w &&& r.reserved) := by
    have hop : cmdOp w &&& 0xFF = cmdOp w := BitVec.and_allOnes
    calc
      w &&& r.matchMask.2 = cmdWord (cmdOp w) (cmdArg w) &&& cmdWord 0xFF r.reserved := by
        rw [cmdWord_cmdOp_cmdArg]; rfl
      _ = cmdWord (cmdOp w) (cmdArg w &&& r.reserved) := by rw [cmdWord_and, hop]
  rw [h, CmdRow.matchMask, cmdWord_inj, eq_comm (a := cmdOp w)]

theorem decodeCmd_ok_iff_tableRows (w : CmdWord) :
    (∃ i, decodeCmd w = .ok i) ↔ ∃ p ∈ tableRows, w &&& p.2 = p.1 := by
  rw [tableRows_eq]
  constructor
  · rintro ⟨i, h⟩
    obtain ⟨r, hr, hop, hz, -⟩ := decodeCmd_eq_ok_iff_row.1 h
    exact ⟨r.matchMask, List.mem_map_of_mem hr, (and_mask_eq_match_iff r w).2 ⟨hop, hz⟩⟩
  · rintro ⟨_, hp, h⟩
    obtain ⟨r, hr, rfl⟩ := List.mem_map.1 hp
    obtain ⟨hop, hz⟩ := (and_mask_eq_match_iff r w).1 h
    exact ⟨_, decodeCmd_eq_ok_iff_row.2 ⟨r, hr, hop, hz, rfl⟩⟩

/-- The mask 0x80 picks the direction bit of an address byte. -/
theorem getLsbD_7_of_and_0x80 {b m : Byte} (h : b &&& 0x80 = m) : b.getLsbD 7 = m.getLsbD 7 := by
  rw [← h, BitVec.getLsbD_and]
  exact (Bool.and_true _).symm

/-- Settles O3: the table's matches and masks are those of the decoder's rows, and opcodes are looked up whole. -/
theorem legalWordsAreTheTableRows : Obligations.LegalWordsAreTheTableRows := by
  unfold Obligations.LegalWordsAreTheTableRows
  refine ⟨decodeCmd_ok_iff_tableRows, fun b => ⟨fun h => ?_, fun h => ?_⟩⟩
  · exact if_pos (getLsbD_7_of_and_0x80 h)
  · exact if_neg (by rw [getLsbD_7_of_and_0x80 h]; decide)

/-- Settles O4: closed words, each decoded by evaluation. -/
theorem sampleWordsDecode : Obligations.SampleWordsDecode := by
  unfold Obligations.SampleWordsDecode
  decide

end Sys2Proof

namespace Sys2Proof.Machine

/-! ## The step runs what is decoded -/

theorem executorStep_of_decodeCmd {s : State} {i : Instr} (hb : s.host.busy = true) (hd : decodeCmd s.host.cmd = .ok i) :
    executorStep s = exec i s := by
  rw [executorStep, if_pos hb, hd]

theorem step_of_bracket {s : State} {b : Byte} (h : s.busPort.addrByte = some b) : step s = exec (decodeBus b) s := by
  rw [step, h]
  rfl

/-- Settles O5: the step makes the move at the head of the script, or finishes the open bracket. -/
theorem stepRunsDecodedInstruction : Obligations.StepRunsDecodedInstruction := by
  unfold Obligations.StepRunsDecodedInstruction
  constructor
  · intro s f rest i h hb hd
    rw [step_nextMove h]
    exact executorStep_of_decodeCmd (s := { s with env := rest, busFails := f }) hb hd
  · exact fun _ _ => step_of_bracket

end Sys2Proof.Machine
end

section
namespace Sys2Proof.Machine

/-! The lock envelope: the commands' envelopes in one table, their entry, the wait for the lock and their end. -/

/-! ## The envelope of each command, as a table -/

/-- The envelope a command runs inside (40_register_interface.md R137), from its own rule; `exec_eq_envelopeOf` ties it
to `exec`. An instruction without one gets a body with no micro-step. -/
def envelopeOf (c : Config) : Instr → Envelope
  | .rdreg a => envelopeAt .xTxn (rdregBody a)
  | .wrreg a d => envelopeAt .xTxn (wrregBody a d)
  | .rdburst a n => { envelopeAt .xTxn (rdburstBody a n) with onErr := rdburstOnErr }
  | .wrburst a n => { envelopeAt .xTxn (wrburstBody a n) with start := fun s => (s.loadPayload n.toNat).goto .xTxn }
  | .setsf v => envelopeAt .cRd (rmwBody c.aModemConfig2 maskSf 4 (clampSf v) (·.putSf (clampSf v)))
  | .setbw v => envelopeAt .cRd (rmwBody c.aModemConfig1 maskBw 4 (clampBw v) (·.putBw (clampBw v)))
  | .setcr v => envelopeAt .cRd (rmwBody c.aModemConfig1 maskCr 1 (clampCr v) (·.putCr (clampCr v)))
  | .setcrc en => envelopeAt .cRd (rmwBody c.aModemConfig2 maskCrc 2 (en.setWidth 8) (·.putCrc en))
  | .setpre n => envelopeAt .cWr (setpreBody n)
  | .setfreq f => envelopeAt .cWr (setfreqBody f)
  | .setpwr d => envelopeAt .cWr (setpwrBody (powerSetting c d))
  | .getsf => envelopeAt .gR1 (getBody c.aModemConfig2 fun b => (b.extractLsb' 4 4).setWidth 32)
  | .getbw => envelopeAt .gR1 (getBody c.aModemConfig1 fun b => (b.extractLsb' 4 4).setWidth 32)
  | .getcr => envelopeAt .gR1 (getBody c.aModemConfig1 fun b => (b.extractLsb' 1 3).setWidth 32)
  | .getcrc => envelopeAt .gR1 (getBody c.aModemConfig2 fun b => (b.extractLsb' 2 1).setWidth 32)
  | .getpre => envelopeAt .gR1 getpreBody
  | .getfreq => envelopeAt .gR1 getfreqBody
  | .setmode m => { envelopeAt .mCmd (setmodeBody m) with start := fun s => { s with seq := ⟨.mCmd, .mRd⟩ } }
  | .init => envelopeAt .iRst initBody
  | .transmit len =>
    { check := payloadCheck c len
      start := fun s =>
        let t := s.loadPayload len.toNat
        { t with pe := { t.pe with len := len.setWidth 8 } }.goto .tEns
      body := fun s => (peTransmit s).onDone fun _ t => .done (len.setWidth 32) t
      onErr := noErrEffect }
  | .receive =>
    { check := none
      start := (·.goto .rEns)
      body := fun s => (peReceive s).onDone fun _ t => .done (t.pe.len.setWidth 32) (t.deliver t.payload t.pe.len)
      onErr := receiveOnErr }
  | .ismode _ | .schstart _ | .busRd _ | .busWr _ => envelopeAt .idle fun _ => .fault .badMicroStep

theorem exec_eq_envelopeOf {i : Instr} (h : usesEnvelope i = true) (s : State) :
    exec i s = (envelopeOf s.cfg i).exec s := by
  cases i with
  | ismode | schstart | busRd | busWr => cases h
  | _ => rfl

theorem envelopeOf_check (c : Config) (i : Instr) : (envelopeOf c i).check = argCheck c i := by cases i <;> rfl

/-- What the step that takes the lock does, in the terms of the claims. -/
theorem envelopeOf_start {i : Instr} (h : usesEnvelope i = true) (c : Config) (s : State) :
    (envelopeOf c i).start s = { s with seq := startSeq i, pe := peAtStart s i } := by
  cases i with
  | ismode | schstart | busRd | busWr => cases h
  | _ => rfl

/-- The payload is copied from `hbuf`, whatever the lock and the place in the envelope. -/
theorem peAtStart_takeLock (i : Instr) (s : State) (o : Owner) (pos : HostPos) :
    peAtStart { s with lockOwner := o, host := { s.host with pos := pos } } i = peAtStart s i := by cases i <;> rfl

/-- What a command adds on an error: it may write `rbuf`, `rlen` and the count of free values, and clear `res`. -/
structure ErrorExtras (s t : State) : Prop where
  status : t.host.status = s.host.status
  res : t.host.res = s.host.res ∨ t.host.res = 0
  busy : t.host.busy = s.host.busy
  pos : t.host.pos = s.host.pos
  cmd : t.host.cmd = s.host.cmd
  hbuf : t.host.hbuf = s.host.hbuf
  lockOwner : t.lockOwner = s.lockOwner
  seq : t.seq = s.seq
  pe : t.pe = s.pe
  dev : t.dev = s.dev
  trace : t.trace = s.trace
  busFault : t.busFault = s.busFault
  x : t.x = s.x
  modeShadow : t.modeShadow = s.modeShadow
  senders : t.senders = s.senders

theorem ErrorExtras.rfl' (s : State) : ErrorExtras s s :=
  ⟨rfl, .inl rfl, rfl, rfl, rfl, rfl, rfl, rfl, rfl, rfl, rfl, rfl, rfl, rfl, rfl⟩

theorem rdburstOnErr_extras (e : Err) (s : State) : ErrorExtras s (rdburstOnErr e s) := by
  cases e with
  | busFault => exact ⟨rfl, .inl rfl, rfl, rfl, rfl, rfl, rfl, rfl, rfl, rfl, rfl, rfl, rfl, rfl, rfl⟩
  | _ => exact .rfl' s

theorem receiveOnErr_extras (e : Err) (s : State) : ErrorExtras s (receiveOnErr e s) := by
  refine ⟨rfl, ?_, rfl, rfl, rfl, rfl, rfl, rfl, rfl, rfl, rfl, rfl, rfl, rfl, rfl⟩
  unfold receiveOnErr
  cases s.cfg.receiveErrorsClearRes with
  | true => exact .inr rfl
  | false => exact .inl rfl

theorem envelopeOf_onErr (c : Config) (i : Instr) (e : Err) (s : State) :
    ErrorExtras s ((envelopeOf c i).onErr e s) := by
  cases i with
  | rdburst a n => exact rdburstOnErr_extras e s
  | receive => exact receiveOnErr_extras e s
  | _ => exact .rfl' s

/-! ## Entry and the wait for the lock -/

/-- An error without info, found before the lock is held, ends the command and touches nothing else. -/
theorem failUnlocked_ended (c : Config) (i : Instr) {e : Err} (he : e.info = 0) (s : State) :
    EndedUnlocked s ((envelopeOf c i).failUnlocked e s) e.code :=
  have hx : ErrorExtras (s.raiseHost e) ((envelopeOf c i).failUnlocked e s) := envelopeOf_onErr c i e _
  { status := hx.status, res := hx.res.elim (·.trans he) id, busy := hx.busy, pos := hx.pos, cmd := hx.cmd
    hbuf := hx.hbuf, lockOwner := hx.lockOwner, seq := hx.seq, pe := hx.pe, dev := hx.dev, trace := hx.trace
    busFault := hx.busFault, x := hx.x, modeShadow := hx.modeShadow, senders := hx.senders }

theorem exec_at_e0 {i : Instr} (hi : usesEnvelope i = true) {s : State} (hp : s.host.pos = .e0) :
    exec i s = .next ((envelopeOf s.cfg i).enter s) := by
  rw [exec_eq_envelopeOf hi, Envelope.exec, hp]

theorem exec_at_e2 {i : Instr} (hi : usesEnvelope i = true) {s : State} {d : Option Word32} (hp : s.host.pos = .e2 d) :
    exec i s = .next ((envelopeOf s.cfg i).await d s) := by
  rw [exec_eq_envelopeOf hi, Envelope.exec, hp]

/-- Settles O7: E0 and E1 of the envelope, whose only other end is the BusFault of a faulted bus. -/
theorem commandEntersEnvelope : Obligations.CommandEntersEnvelope := by
  unfold Obligations.CommandEntersEnvelope
  intro i s hi hc hp
  rw [← envelopeOf_check] at hc
  rw [exec_at_e0 hi hp, Envelope.enter, hc]
  constructor
  · intro hf
    rw [hf]
    rfl
  · intro hf
    rw [hf]
    exact ⟨_, rfl, failUnlocked_ended s.cfg i rfl s⟩

theorem deadlineReached_some (now w : Word32) : deadlineReached now (some w) = true ↔ (now - w).toNat < 2 ^ 31 :=
  decide_eq_true_iff

/-- Settles O8: E2 of the envelope, by the state of the lock, of the bus and of the deadline. -/
theorem lockTakenInOneStep : Obligations.LockTakenInOneStep := by
  unfold Obligations.LockTakenInOneStep
  intro i s d hi hp
  rw [exec_at_e2 hi hp, Envelope.await]
  refine ⟨fun ho hf => ?_, fun ho hf => ?_, fun ho hd => ?_, fun ho hd => ?_⟩
  · rw [if_pos ho, if_neg (by simp [hf]), envelopeOf_start hi, ← peAtStart_takeLock i s .host .e3]
  · rw [if_pos ho, hf]
    exact ⟨_, rfl, failUnlocked_ended s.cfg i rfl s⟩
  · have hn : ¬ deadlineReached s.now d = true := by
      rcases hd with rfl | ⟨w, rfl, hw⟩
      · exact Bool.false_ne_true
      · rw [deadlineReached_some]
        omega
    rw [if_neg ho, if_neg hn]
  · obtain ⟨w, rfl, hw⟩ := hd
    rw [if_neg ho, if_pos ((deadlineReached_some _ _).2 hw)]
    exact ⟨_, rfl, failUnlocked_ended s.cfg i rfl s⟩

end Sys2Proof.Machine
end

section
namespace Sys2Proof.Machine

/-! What the draw of the bus environment does to a micro-step: nothing, or its one transaction fails. -/

/-! ## The draw of a step -/

/-- The state with the draw of the running step given (60_exceptions.md R291). -/
abbrev State.withDraw (s : State) (f : Bool) : State := { s with busFails := f }

/-- A micro-step's end with the draw given in the state it leaves. -/
def Micro.withDraw (m : Micro) (f : Bool) : Micro :=
  match m with
  | .cont s => .cont (s.withDraw f)
  | .done r s => .done r (s.withDraw f)
  | .raise e s => .raise e (s.withDraw f)
  | .fault e => .fault e
  | .refused r => .refused r

theorem State.withDraw_self {s : State} {f : Bool} (h : s.busFails = f) : s.withDraw f = s := by subst h; rfl

/-- What block-side work inside a command's body leaves alone: the log, the fault bit, the lock and the port but for the
bytes delivered. -/
structure BodyView where
  trace : List TraceRec
  busFault : Bool
  lockOwner : Owner
  pos : HostPos
  busy : Bool
  status : Byte
  res : Word32

def State.bodyView (s : State) : BodyView :=
  ⟨s.trace, s.busFault, s.lockOwner, s.host.pos, s.host.busy, s.host.status, s.host.res⟩

/-- Block-side work from a state on, ending with one of the errors a body can raise if with any. -/
abbrev Post.blockWork (s : State) : Post :=
  { Post.everyState (fun t => t.bodyView = s.bodyView) with
    raise := fun e t => t.bodyView = s.bodyView ∧ e.code.toNat ≤ 6 }

/-- The lock and the port as a micro-step of a body leaves them. -/
structure LockKept (s t : State) : Prop where
  lockOwner : t.lockOwner = s.lockOwner
  pos : t.host.pos = s.host.pos
  busy : t.host.busy = s.host.busy
  status : t.host.status = s.host.status
  res : t.host.res = s.host.res

/-- How a micro-step of a body can end: it goes on with the lock and the port as they were, returns, or raises an error
a body can raise. -/
abbrev Post.bodyEnd (s : State) : Post :=
  { Post.everyState (fun _ => True) with cont := LockKept s, raise := fun e _ => e.code.toNat ≤ 6 }

/-- Everything the claims need of a state left by a failed transaction. -/
structure TxnFailed (s t : State) : Prop extends FailureRecorded s t where
  host : t.host = s.host
  lockOwner : t.lockOwner = s.lockOwner
  senders : t.senders = s.senders

/-- What the draw does to a micro-step that ends as `m₁` when the bus fails and as `m₀` when it does not: there is no
transaction and the draw does nothing, or there is one, which the draw lets fail. -/
inductive DrawCase (s : State) (m₁ m₀ : Micro) : Prop where
  | quiet (h : m₁ = m₀.withDraw true) (hm : m₀.Sat (.blockWork s))
  | failed (t : State) (h : m₁ = .raise .busFault t) (ht : TxnFailed s t)
      (hm : m₀.Sat (.everyState fun u => u.trace ≠ s.trace))

/-- What is claimed of every micro-step of a body, with the bus failing and with the bus healthy. -/
structure BodyStep (s : State) (m₁ m₀ : Micro) : Prop where
  end₁ : m₁.Sat (.bodyEnd s)
  end₀ : m₀.Sat (.bodyEnd s)
  draw : s.busFault = false → s.lockOwner ≠ .none → DrawCase s m₁ m₀

theorem LockKept.of_bodyView {s t : State} (h : t.bodyView = s.bodyView) : LockKept s t :=
  ⟨congrArg (·.lockOwner) h, congrArg (·.pos) h, congrArg (·.busy) h, congrArg (·.status) h, congrArg (·.res) h⟩

/-- Block-side work after the lock and the port were left as they were. -/
theorem Micro.Sat.bodyEnd {m : Micro} {s t : State} (h : m.Sat (.blockWork t)) (ht : LockKept s t) :
    m.Sat (.bodyEnd s) :=
  h.mono
    (fun _ hu =>
      have hu := LockKept.of_bodyView hu
      ⟨hu.lockOwner.trans ht.lockOwner, hu.pos.trans ht.pos, hu.busy.trans ht.busy, hu.status.trans ht.status,
        hu.res.trans ht.res⟩)
    (fun _ _ _ => trivial) (fun _ _ hu => hu.2) (fun _ => id) (fun _ => id)

/-- A micro-step without a transaction that does not look at the draw. -/
theorem BodyStep.quiet {s : State} {m₁ m₀ : Micro} (hm : m₀.Sat (.blockWork s)) (h : m₁ = m₀.withDraw true := by rfl) :
    BodyStep s m₁ m₀ where
  end₀ := hm.bodyEnd (.of_bodyView rfl)
  end₁ := by
    have hm : m₀.Sat (.bodyEnd s) := hm.bodyEnd (.of_bodyView rfl)
    subst h
    cases m₀ with
    | cont u => exact ⟨hm.lockOwner, hm.pos, hm.busy, hm.status, hm.res⟩
    | _ => exact hm
  draw _ _ := .quiet h hm

/-! ## A transaction between two stretches of block-side work -/

/-- What a micro-step needs to know of the transaction it asks for. -/
structure Transaction (x : State → Txn) : Prop where
  /-- However it ends, it does what `TxnEffect` says. -/
  ends {s : State} {k : List Byte → State → Micro} {p : Post} (hk : ∀ bs t, TxnEffect s t → (k bs t).Sat p)
    (hr : ∀ t, TxnEffect s t → p.raise .busFault t) (hf : ∀ f, p.fault f) (hu : ∀ r, p.refused r) :
    ((x s).andThen k).Sat p
  /-- On a healthy bus it is recorded, if it does not stop the machine. -/
  recorded {s : State} {k : List Byte → State → Micro} {P : State → Prop} (hs : BusReady s)
    (hk : ∀ bs t r, t.trace = s.trace ++ [r] → (k bs t).Sat (.everyState P)) : ((x s).andThen k).Sat (.everyState P)
  /-- When the bus fails, it fails. -/
  fails {s : State} (ho : s.lockOwner ≠ .none) (hb : s.busFault = false) (hf : s.busFails = true) :
    ∃ t, x s = .failed t ∧ TxnFailed s t

theorem txnFailed_failTxn (s : State) (kind : BusKind) (a : Addr) (d : List Byte) : TxnFailed s (s.failTxn kind a d) :=
  { failTxn_recorded s kind a d with host := by simp, lockOwner := by simp, senders := by simp }

theorem busRead_transaction (a : Addr) (n : Nat) : Transaction (busRead a n) where
  ends hk hr hf hu :=
    burstRead_sat (fun bs t ht _ _ _ => hk bs t ht) (fun t ht _ => hr t ht) ⟨fun _ => hf _, fun _ _ => hf _⟩
      (fun _ _ => hu _)
  recorded hs hk := busRead_healthy hs fun _ t h => hk _ _ _ (by simp [(devRead_effect h).1.trace]; rfl)
  fails ho hb hf := ⟨_, by simp [busRead, ho, hb, hf]; rfl, txnFailed_failTxn ..⟩

theorem busWrite_transaction (a : Addr) (d : List Byte) : Transaction (busWrite a d) where
  ends hk hr hf hu :=
    burstWrite_sat (fun t ht _ _ => hk [] t ht) (fun t ht _ => hr t ht) ⟨fun _ => hf _, fun _ _ => hf _⟩
      (fun _ _ => hu _)
  recorded hs hk := busWrite_healthy hs fun _ t h => hk _ _ _ (by simp [(devWrite_effect h).trace]; rfl)
  fails ho hb hf := ⟨_, by simp [busWrite, ho, hb, hf]; rfl, txnFailed_failTxn ..⟩

section
variable {s : State} {p : PeRegs} {l : Bool}

/-- A micro-step with one transaction, after work on the working registers and the interrupt latch. -/
theorem Transaction.bodyStep {x : State → Txn} (hx : Transaction x) {k : List Byte → State → Micro}
    (hk : ∀ bs t, (k bs t).Sat (.blockWork t)) :
    BodyStep s ((x (({ s with pe := p, irqLatch := l } : State).withDraw true)).andThen k)
      ((x (({ s with pe := p, irqLatch := l } : State).withDraw false)).andThen k) := by
  have hend : ∀ f, ((x (({ s with pe := p, irqLatch := l } : State).withDraw f)).andThen k).Sat (.bodyEnd s) :=
    fun f => hx.ends
      (fun bs t ht => (hk bs t).bodyEnd
        ⟨ht.lockOwner, congrArg (·.pos) ht.host, congrArg (·.busy) ht.host, congrArg (·.status) ht.host,
          congrArg (·.res) ht.host⟩)
      (fun _ _ => show (1 : Byte).toNat ≤ 6 by decide) (fun _ => trivial) (fun _ => trivial)
  refine ⟨hend true, hend false, fun hb ho => ?_⟩
  obtain ⟨t, ht, hf⟩ := hx.fails (s := ({ s with pe := p, irqLatch := l } : State).withDraw true) ho hb rfl
  have hraise : (x (({ s with pe := p, irqLatch := l } : State).withDraw true)).andThen k = .raise .busFault t := by
    rw [ht]
    rfl
  refine .failed t hraise ⟨⟨hf.busFault, hf.trace, hf.modeShadow, hf.x⟩, hf.host, hf.lockOwner, hf.senders⟩ ?_
  refine hx.recorded ⟨ho, hb, rfl⟩ fun bs t r htr => ?_
  have htr : t.trace = s.trace ++ [r] := htr
  have hne : t.trace ≠ s.trace := by simp [htr]
  have hview : ∀ {u : State}, u.bodyView = t.bodyView → u.trace ≠ s.trace := fun hu e =>
    hne ((congrArg (·.trace) hu).symm.trans e)
  exact (hk bs t).mono (fun _ => hview) (fun _ _ => hview) (fun _ _ hu => hview hu.1) (fun _ => id) (fun _ => id)

theorem readReg_bodyStep {a : Addr} {k : Byte → State → Micro}
    (hk : ∀ b t, (k b t).Sat (.blockWork t) := by exact fun _ _ => rfl) :
    BodyStep s (readReg a (({ s with pe := p, irqLatch := l } : State).withDraw true) k)
      (readReg a (({ s with pe := p, irqLatch := l } : State).withDraw false) k) :=
  (busRead_transaction a 1).bodyStep fun bs t => hk (bs.headD 0) t

theorem writeReg_bodyStep {a : Addr} {v : Byte} {k : State → Micro}
    (hk : ∀ t, (k t).Sat (.blockWork t) := by exact fun _ => rfl) :
    BodyStep s (writeReg a v (({ s with pe := p, irqLatch := l } : State).withDraw true) k)
      (writeReg a v (({ s with pe := p, irqLatch := l } : State).withDraw false) k) :=
  (busWrite_transaction a [v]).bodyStep fun _ => hk

end

/-! ## The micro-steps of each command -/

/-- A body, with the bus failing and with the bus healthy. -/
abbrev StepOf (body : State → Micro) (s : State) : Prop := BodyStep s (body (s.withDraw true)) (body (s.withDraw false))

theorem rdregBody_step (a : Addr) (s : State) : StepOf (rdregBody a) s := by
  unfold StepOf rdregBody
  dsimp only [State.withDraw]
  split
  · exact readReg_bodyStep
  · exact .quiet trivial

theorem wrregBody_step (a : Addr) (d : Byte) (s : State) : StepOf (wrregBody a d) s := by
  unfold StepOf wrregBody
  dsimp only [State.withDraw]
  split
  · exact writeReg_bodyStep
  · exact .quiet trivial

theorem rdburstBody_step (a : Addr) (n : Byte) (s : State) : StepOf (rdburstBody a n) s := by
  unfold StepOf rdburstBody
  dsimp only [State.withDraw]
  split
  · split
    · exact .quiet rfl
    · exact (busRead_transaction ..).bodyStep fun _ _ => rfl
  · exact .quiet trivial

theorem wrburstBody_step (a : Addr) (n : Byte) (s : State) : StepOf (wrburstBody a n) s := by
  unfold StepOf wrburstBody
  dsimp only [State.withDraw]
  split
  · split
    · exact .quiet rfl
    · exact (busWrite_transaction ..).bodyStep fun _ _ => rfl
  · exact .quiet trivial

theorem rmwBody_step {a : Addr} {mask : Byte} {pos : Nat} {val : Byte} {commit : State → State}
    (hc : ∀ t, (commit t).bodyView = t.bodyView) (s : State) : StepOf (rmwBody a mask pos val commit) s := by
  unfold StepOf rmwBody
  dsimp only [State.withDraw]
  split
  · exact readReg_bodyStep
  · exact writeReg_bodyStep hc
  · exact .quiet trivial

theorem setpreBody_step (n : BitVec 16) (s : State) : StepOf (setpreBody n) s := by
  unfold StepOf setpreBody
  dsimp only [State.withDraw]
  split
  · exact writeReg_bodyStep
  · exact writeReg_bodyStep
  · exact .quiet trivial

theorem setfreqBody_step (f : Word32) (s : State) : StepOf (setfreqBody f) s := by
  unfold StepOf setfreqBody
  dsimp only [State.withDraw]
  split
  · exact writeReg_bodyStep
  · exact writeReg_bodyStep
  · exact writeReg_bodyStep
  · exact .quiet trivial

theorem setpwrBody_step (v : Byte) (s : State) : StepOf (setpwrBody v) s := by
  unfold StepOf setpwrBody
  dsimp only [State.withDraw]
  split
  · exact writeReg_bodyStep
  · exact writeReg_bodyStep
  · exact .quiet trivial

theorem getBody_step (a : Addr) (field : Byte → Word32) (s : State) : StepOf (getBody a field) s := by
  unfold StepOf getBody
  dsimp only [State.withDraw]
  split
  · exact readReg_bodyStep
  · exact .quiet trivial

theorem getpreBody_step (s : State) : StepOf getpreBody s := by
  unfold StepOf getpreBody
  dsimp only [State.withDraw]
  split
  · exact readReg_bodyStep
  · exact readReg_bodyStep
  · exact .quiet trivial

theorem getfreqBody_step (s : State) : StepOf getfreqBody s := by
  unfold StepOf getfreqBody
  dsimp only [State.withDraw]
  split
  · exact readReg_bodyStep
  · exact readReg_bodyStep
  · exact readReg_bodyStep
  · exact .quiet trivial

/-- A verified mode transition, before block-side work (42_mode_controller.md R191, R194). -/
theorem setModeStep_step {target : ModeCode} {retry : Bool} {k : State → Micro} (s : State)
    (hk : ∀ t, (k t).Sat (.blockWork t) := by exact fun _ => rfl) :
    StepOf (fun t => setModeStep target retry t k) s := by
  unfold StepOf setModeStep
  dsimp only [State.withDraw]
  split
  · exact readReg_bodyStep (l := s.irqLatch)
      (p := { s.pe with attempt := if retry then s.pe.attempt + 1 else s.pe.attempt })
  · exact writeReg_bodyStep
  · refine readReg_bodyStep fun r t => ?_
    split
    · exact hk { t with modeShadow := target }
    · split
      · rfl
      · exact ⟨rfl, show (2 : Byte).toNat ≤ 6 by decide⟩
  · exact .quiet trivial

theorem setmodeBody_step (m : ModeCode) (s : State) : StepOf (setmodeBody m) s := by
  unfold StepOf setmodeBody
  dsimp only [State.withDraw]
  split
  · exact setModeStep_step s
  · exact .quiet trivial

theorem initBody_step (s : State) : StepOf initBody s := by
  unfold StepOf initBody
  dsimp only [State.withDraw]
  split
  case h_1 => exact .quiet rfl
  case h_2 => exact writeReg_bodyStep
  case h_3 =>
    refine readReg_bodyStep fun r t => ?_
    split
    · rfl
    · exact ⟨rfl, show (2 : Byte).toNat ≤ 6 by decide⟩
  case h_4 => exact writeReg_bodyStep
  case h_5 => exact writeReg_bodyStep
  case h_6 => exact setModeStep_step s
  case h_7 => exact .quiet trivial

theorem ensureStandby_step (m next : Main) (s : State) : StepOf (fun t => .cont (ensureStandby m next t)) s := by
  unfold StepOf ensureStandby
  dsimp only [State.withDraw]
  split
  · exact .quiet rfl
  · exact .quiet rfl

/-- A completion wait that raises one of the errors a body can raise. -/
theorem waitStep_step {bit : Byte} {timeout : Err} (he : timeout.code.toNat ≤ 6) {k : State → Micro} (s : State)
    (hk : ∀ t, (k t).Sat (.blockWork t) := by exact fun _ => rfl) :
    StepOf (fun t => waitStep bit timeout t k) s := by
  unfold StepOf waitStep
  dsimp only [State.withDraw]
  split
  · refine readReg_bodyStep fun f t => ?_
    dsimp only
    split
    · exact hk { t with pe := { t.pe with flags := f, cnt := t.pe.cnt + 1 } }
    · split
      · exact ⟨rfl, he⟩
      · rfl
  · unfold irqStep
    dsimp only
    split
    · refine readReg_bodyStep (p := s.pe) (l := false) fun f t => ?_
      split
      · exact hk { t with pe := { t.pe with flags := f } }
      · rfl
    · split
      · exact .quiet ⟨rfl, he⟩
      · exact .quiet rfl

theorem State.armWait_bodyView (s : State) (m : Main) : (s.armWait m).bodyView = s.bodyView := by
  simp [State.bodyView]

theorem peTransmit_step (s : State) : StepOf peTransmit s := by
  unfold StepOf peTransmit
  dsimp only [State.withDraw]
  split
  case h_1 => exact ensureStandby_step .tEns .tBase s
  case h_2 => exact setModeStep_step s
  case h_3 => exact readReg_bodyStep
  case h_4 => exact writeReg_bodyStep
  case h_5 => exact (busWrite_transaction ..).bodyStep fun _ _ => rfl
  case h_6 => exact writeReg_bodyStep
  case h_7 => exact writeReg_bodyStep
  case h_8 => exact setModeStep_step s fun t => t.armWait_bodyView _
  case h_9 => exact waitStep_step (by decide) s
  case h_10 => exact writeReg_bodyStep
  case h_11 => exact setModeStep_step s
  case h_12 => exact .quiet trivial

theorem peReceive_step (s : State) : StepOf peReceive s := by
  unfold StepOf peReceive
  dsimp only [State.withDraw]
  split
  case h_1 => exact ensureStandby_step .rEns .rMode s
  case h_2 => exact setModeStep_step s
  case h_3 => exact .quiet rfl
  case h_4 => exact setModeStep_step s fun t => t.armWait_bodyView _
  case h_5 => exact waitStep_step (by decide) s
  case h_6 => exact .quiet rfl
  case h_7 => exact readReg_bodyStep
  case h_8 => exact readReg_bodyStep
  case h_9 => exact writeReg_bodyStep
  case h_10 =>
    split
    · exact .quiet rfl
    · exact (busRead_transaction ..).bodyStep fun _ _ => rfl
  case h_11 => exact writeReg_bodyStep
  case h_12 =>
    refine setModeStep_step s fun t => ?_
    split
    · exact ⟨rfl, show (6 : Byte).toNat ≤ 6 by decide⟩
    · rfl
  case h_13 => exact .quiet trivial

/-! ## How an operation ends after its micro-step -/

/-- What the caller of a micro-step makes of a return and of an error. -/
structure Completion where
  done : Word32 → State → State
  raise : Err → State → State

/-- The outcome of the step, from the end of its micro-step. -/
def Completion.outcome (c : Completion) : Micro → Host.Outcome State Fault Refusal
  | .cont s => .next s
  | .done r s => .next (c.done r s)
  | .raise e s => .next (c.raise e s)
  | .fault f => .fault f
  | .refused r => .refused r

/-- E4 and E5 of a command's envelope. -/
def Envelope.completion (v : Envelope) : Completion :=
  ⟨fun r t => t.endedOk r, fun e t => v.onErr e (t.endedErr e)⟩

/-- The end of a sender's SEND (44_arbiter_scheduler.md R247). -/
def sendCompletion (i : Sid) : Completion := ⟨fun _ t => t.sendEnded i codeOk, fun e t => t.sendEnded i e.code⟩

theorem exec_at_e3 {i : Instr} (hi : usesEnvelope i = true) {s : State} (hp : s.host.pos = .e3) :
    exec i s = (envelopeOf s.cfg i).completion.outcome ((envelopeOf s.cfg i).body s) := by
  rw [exec_eq_envelopeOf hi, Envelope.exec_body _ _ hp]
  cases (envelopeOf s.cfg i).body s <;> rfl

theorem senderStep_sending {i : Sid} {k : Bool} {s : State} (hp : (s.senders.get i).phase = .sending)
    (hf : s.busFault = false) : senderStep i k s = (sendCompletion i).outcome (peTransmit s) := by
  unfold senderStep senderSend
  rw [hp, hf]
  simp only [Bool.false_eq_true, and_false, if_false]
  cases peTransmit s <;> rfl

/-- A completion leaves the log, the fault bit and the draw to the micro-step. -/
structure Completion.Neutral (c : Completion) : Prop where
  done (r : Word32) (s : State) : (c.done r s).trace = s.trace ∧ (c.done r s).busFault = s.busFault ∧
    c.done r (s.withDraw true) = (c.done r s).withDraw true
  raise (e : Err) (s : State) : (c.raise e s).trace = s.trace ∧ (c.raise e s).busFault = s.busFault ∧
    c.raise e (s.withDraw true) = (c.raise e s).withDraw true

theorem envelopeOf_onErr_withDraw (c : Config) (i : Instr) (e : Err) (s : State) (f : Bool) :
    (envelopeOf c i).onErr e (s.withDraw f) = ((envelopeOf c i).onErr e s).withDraw f := by
  cases i with
  | rdburst a n => cases e <;> rfl
  | _ => rfl

theorem envelopeOf_completion_neutral (c : Config) (i : Instr) : (envelopeOf c i).completion.Neutral where
  done _ _ := ⟨rfl, rfl, rfl⟩
  raise e s :=
    have hx := envelopeOf_onErr c i e (s.endedErr e)
    ⟨hx.trace, hx.busFault, envelopeOf_onErr_withDraw c i e (s.endedErr e) true⟩

theorem sendCompletion_neutral (i : Sid) : (sendCompletion i).Neutral :=
  ⟨fun _ _ => ⟨rfl, rfl, rfl⟩, fun _ _ => ⟨rfl, rfl, rfl⟩⟩

/-- The two sides of the draw, as the claims put them: a healthy step that records nothing is the failing step but for
the draw, and where a healthy step would record something the failing step is that of a failed transaction. -/
theorem DrawCase.claims {s t : State} {m₁ m₀ : Micro} {c : Completion} (h : DrawCase s m₁ m₀) (hc : c.Neutral)
    (hb : s.busFault = false) (ht : c.outcome m₁ = .next t) :
    (∀ u, c.outcome m₀ = .next u → u.trace = s.trace → t = { u with busFails := true } ∧ t.busFault = false) ∧
      ((∀ u, c.outcome m₀ = .next u → u.trace ≠ s.trace) → ∃ v, TxnFailed s v ∧ t = c.raise .busFault v) := by
  cases h with
  | quiet h hm =>
    have same : ∃ u, c.outcome m₀ = .next u ∧ u.trace = s.trace ∧ t = u.withDraw true ∧ u.busFault = s.busFault := by
      subst h
      cases m₀ with
      | cont u =>
        cases ht
        exact ⟨u, rfl, congrArg (·.trace) hm, rfl, congrArg (·.busFault) hm⟩
      | done r u =>
        obtain ⟨htr, hbf, hd⟩ := hc.done r u
        cases ht
        exact ⟨_, rfl, htr.trans (congrArg (·.trace) hm), hd, hbf.trans (congrArg (·.busFault) hm)⟩
      | raise e u =>
        obtain ⟨htr, hbf, hd⟩ := hc.raise e u
        cases ht
        exact ⟨_, rfl, htr.trans (congrArg (·.trace) hm.1), hd, hbf.trans (congrArg (·.busFault) hm.1)⟩
      | fault f => cases ht
      | refused r => cases ht
    obtain ⟨u, hu, htr, rfl, hbf⟩ := same
    refine ⟨fun u' hu' _ => ?_, fun hn => absurd htr (hn u hu)⟩
    cases hu.symm.trans hu'
    exact ⟨rfl, hbf.trans hb⟩
  | failed v h hv hm =>
    subst h
    cases ht
    refine ⟨fun u hu htr => absurd htr ?_, fun _ => ⟨v, hv, rfl⟩⟩
    cases m₀ with
    | cont w => cases hu; exact hm
    | done r w => cases hu; rw [(hc.done r w).1]; exact hm
    | raise e w => cases hu; rw [(hc.raise e w).1]; exact hm
    | fault f => cases hu
    | refused r => cases hu

/-! ## The bodies of all commands -/

/-- A procedure's return turned into the command's own result. -/
theorem BodyStep.onDone {s : State} {m₁ m₀ : Micro} (h : BodyStep s m₁ m₀) {r : State → Word32} {g : State → State}
    (hv : ∀ t, (g t).bodyView = t.bodyView := by exact fun _ => rfl)
    (hd : ∀ t : State, r (t.withDraw true) = r t ∧ g (t.withDraw true) = (g t).withDraw true := by
      exact fun _ => ⟨rfl, rfl⟩) :
    BodyStep s (m₁.onDone fun _ t => .done (r t) (g t)) (m₀.onDone fun _ t => .done (r t) (g t)) where
  end₁ := Micro.onDone_sat h.end₁
  end₀ := Micro.onDone_sat h.end₀
  draw hb ho := by
    cases h.draw hb ho with
    | quiet h hm =>
      subst h
      refine .quiet ?_ (Micro.onDone_sat (hm.mono (fun _ => id) (fun _ t ht => (hv t).trans ht) (fun _ _ => id)
        (fun _ => id) (fun _ => id)))
      cases m₀ with
      | done q t =>
        show Micro.done (r (t.withDraw true)) (g (t.withDraw true)) = .done (r t) ((g t).withDraw true)
        rw [(hd t).1, (hd t).2]
      | _ => rfl
    | failed t h ht hm =>
      subst h
      exact .failed t rfl ht (Micro.onDone_sat (hm.mono (fun _ => id)
        (fun _ u hu => ((congrArg BodyView.trace (hv u)).trans_ne hu :)) (fun _ _ => id) (fun _ => id) (fun _ => id)))

theorem envelopeOf_step {i : Instr} (h : usesEnvelope i = true) (s : State) : StepOf (envelopeOf s.cfg i).body s := by
  cases i with
  | rdreg a => exact rdregBody_step a s
  | wrreg a d => exact wrregBody_step a d s
  | rdburst a n => exact rdburstBody_step a n s
  | wrburst a n => exact wrburstBody_step a n s
  | setsf v => exact rmwBody_step (commit := (·.putSf (clampSf v))) (fun _ => rfl) s
  | setbw v => exact rmwBody_step (commit := (·.putBw (clampBw v))) (fun _ => rfl) s
  | setcr v => exact rmwBody_step (commit := (·.putCr (clampCr v))) (fun _ => rfl) s
  | setcrc en => exact rmwBody_step (commit := (·.putCrc en)) (fun _ => rfl) s
  | setpre n => exact setpreBody_step n s
  | setfreq f => exact setfreqBody_step f s
  | setpwr d => exact setpwrBody_step _ s
  | getsf | getbw | getcr | getcrc => exact getBody_step _ _ s
  | getpre => exact getpreBody_step s
  | getfreq => exact getfreqBody_step s
  | setmode m => exact setmodeBody_step m s
  | init => exact initBody_step s
  | transmit len => exact (peTransmit_step s).onDone (r := fun _ => len.setWidth 32) (g := id)
  | receive => exact (peReceive_step s).onDone (g := fun t => t.deliver t.payload t.pe.len)
  | ismode | schstart | busRd | busWr => cases h

/-- How a micro-step of a command's body can end, whatever the draw. -/
theorem envelopeOf_body_ends {i : Instr} (h : usesEnvelope i = true) (s : State) :
    ((envelopeOf s.cfg i).body s).Sat (.bodyEnd s) := by
  have hs := envelopeOf_step h s
  cases hf : s.busFails with
  | true => exact State.withDraw_self hf ▸ hs.end₁
  | false => exact State.withDraw_self hf ▸ hs.end₀

/-- Settles O9, by how the micro-step of the body ends. -/
theorem bodyKeepsOrReleasesLock : Obligations.BodyKeepsOrReleasesLock := by
  unfold Obligations.BodyKeepsOrReleasesLock
  intro i s t hi hp h
  have hb := envelopeOf_body_ends hi s
  rw [exec_at_e3 hi hp] at h
  cases hm : (envelopeOf s.cfg i).body s with
  | cont u =>
    rw [hm] at h hb
    cases h
    have hk : LockKept s t := hb
    exact .inl ⟨hk.pos.trans hp, hk.busy, hk.lockOwner, hk.status, hk.res⟩
  | done r u =>
    rw [hm] at h
    cases h
    exact .inr ⟨rfl, rfl, rfl, rfl, show (0 : Byte).toNat ≤ 6 by decide⟩
  | raise e u =>
    rw [hm] at h hb
    cases h
    have hx := envelopeOf_onErr s.cfg i e (u.endedErr e)
    exact .inr ⟨hx.pos, hx.busy, hx.lockOwner, hx.seq, (congrArg BitVec.toNat hx.status).trans_le hb⟩
  | fault f => rw [hm] at h; cases h
  | refused r => rw [hm] at h; cases h

/-! ## Failed transactions -/

/-- A command whose transaction failed has ended with BusFault. -/
theorem raise_busFault_ended {s v : State} (h : TxnFailed s v) (c : Config) (i : Instr) :
    EndedByError ((envelopeOf c i).completion.raise .busFault v) 1 0 ∧
      FailureRecorded s ((envelopeOf c i).completion.raise .busFault v) := by
  have hx : ErrorExtras (v.endedErr .busFault) ((envelopeOf c i).completion.raise .busFault v) :=
    envelopeOf_onErr c i .busFault _
  obtain ⟨r, hr, hown⟩ := h.trace
  exact ⟨⟨hx.status, hx.res.elim id id, hx.busy, hx.pos, hx.lockOwner, hx.seq⟩,
    ⟨hx.busFault.trans h.busFault, ⟨r, hx.trace.trans hr, hown⟩, hx.modeShadow.trans h.modeShadow, hx.x.trans h.x⟩⟩

/-- A sender whose transaction failed has ended SEND with BusFault and still holds the lock. -/
theorem send_busFault_ended {s v : State} (h : TxnFailed s v) (i : Sid) :
    FailureRecorded s ((sendCompletion i).raise .busFault v) ∧ ((sendCompletion i).raise .busFault v).seq = .idle ∧
      ((sendCompletion i).raise .busFault v).lockOwner = s.lockOwner ∧
      ((sendCompletion i).raise .busFault v).host = s.host ∧
      ((sendCompletion i).raise .busFault v).senders =
        s.senders.set i { s.senders.get i with status := 1, phase := .release } := by
  refine ⟨⟨h.busFault, h.trace, h.modeShadow, h.x⟩, rfl, h.lockOwner, h.host, ?_⟩
  rw [← h.senders]
  rfl

/-- On the bus port a failed transaction closes the bracket. -/
theorem FailureRecorded.closeBus {s t : State} (h : FailureRecorded s t) : FailureRecorded s (t.closeBus []) :=
  ⟨h.busFault, h.trace, h.modeShadow, h.x⟩

/-- Settles O54: a body's micro-step and a sender's are a `DrawCase`, completed by the envelope and by SEND; the bus
port makes its transaction directly. -/
theorem failedTransactionEndsTheCommand : Obligations.FailedTransactionEndsTheCommand := by
  unfold Obligations.FailedTransactionEndsTheCommand
  refine ⟨fun i s t hi hp ho hb hf h => ?_, fun i k s t hp ho hb hf h => ?_,
    fun a s ho hb hf => ⟨fun hw => ?_, fun hw => ?_⟩⟩
  · have hrun : ∀ f, exec i (s.withDraw f) =
        (envelopeOf s.cfg i).completion.outcome ((envelopeOf s.cfg i).body (s.withDraw f)) := fun f => exec_at_e3 hi hp
    have hdraw := (envelopeOf_step hi s).draw hb (by simp [ho])
    rw [← State.withDraw_self hf, hrun] at h
    obtain ⟨hq, hfail⟩ := hdraw.claims (envelopeOf_completion_neutral s.cfg i) hb h
    rw [← hrun] at hq hfail
    refine ⟨hq, fun hn => ?_⟩
    obtain ⟨v, hv, rfl⟩ := hfail hn
    exact raise_busFault_ended hv s.cfg i
  · have hrun : ∀ f, senderStep i k (s.withDraw f) = (sendCompletion i).outcome (peTransmit (s.withDraw f)) :=
      fun f => senderStep_sending hp hb
    have hdraw := (peTransmit_step s).draw hb (by simp [ho])
    rw [← State.withDraw_self hf, hrun] at h
    obtain ⟨hq, hfail⟩ := hdraw.claims (sendCompletion_neutral i) hb h
    rw [← hrun] at hq hfail
    refine ⟨hq, fun hn => ?_⟩
    obtain ⟨v, hv, rfl⟩ := hfail hn
    exact ho ▸ send_busFault_ended hv i
  · obtain ⟨t, ht, hr⟩ := busRead_fails a s.busPort.want.toNat s ho hb hf
    exact ⟨_, (if_neg hw).trans (congrArg busPortEnd ht), hr.closeBus, rfl⟩
  · obtain ⟨t, ht, hr⟩ := busWrite_fails a s.busPort.out s ho hb hf
    exact ⟨_, (if_neg hw).trans (congrArg busPortEnd ht), hr.closeBus, rfl⟩

end Sys2Proof.Machine
end

section
namespace Sys2Proof.Machine

/-! The Register Interface on a healthy bus: every kind of register, single and burst, by command and by bus port. -/

/-! ## Reads of a register nothing is stored in -/

/-- A register that does not read as stored gives a free value (20_memory.md R73). -/
theorem busRead_free {s : State} {a : Addr} (h : BusReady s) (ha : a ≠ s.cfg.aFifo) (hr : ¬ readsStored s a) :
    busRead a 1 s =
      .done [Config.freeByte s.drawn] ({ s.afterRead a with
        drawn := s.drawn + 1, trace := s.trace ++ [s.okRec .rd a [Config.freeByte s.drawn]] }) := by
  have hd : devRegRead a s = .done [Config.freeByte s.drawn] { s with drawn := s.drawn + 1 } := by
    simp only [readsStored, PlainReads, not_and, not_or, Bool.not_eq_false] at hr
    obtain ⟨hn, hx⟩ := hr ha
    simp [devRegRead, hn, hx]
  simp [busRead, h.busFault, h.owner, h.busFails, devRead, ha, hd, State.closeTxn, State.log, State.afterRead,
    State.okRec]

/-! ## Writes of the registers the device itself changes -/

/-- What a completed single write leaves, whatever register it is: the register at its new value, every other register
and every FIFO cell as before, one record, and the port untouched. -/
structure RegWritten (s t : State) (a : Addr) (data new : Byte) : Prop where
  reg : t.devReg a = new
  others : sameDeviceBut s t a
  trace : t.trace = s.trace ++ [s.okRec .wr a [data]]
  host : t.host = s.host

/-- A write at the flags register clears the bits written as 1 and has the line observed (20_memory.md R70). -/
theorem busWrite_flagsRegister {s : State} {a : Addr} (h : BusReady s) (ha : a ≠ s.cfg.aFifo) (hi : a = s.cfg.aIrqFlags)
    (v : Byte) :
    ∃ t, busWrite a [v] s = .done [] t ∧ RegWritten s t a v (s.devReg a &&& ~~~v) ∧
      (t.irqLatch, t.irqPrev) = s.edgesAfter (s.devReg a &&& ~~~v) := by
  subst hi
  refine ⟨_, busWrite_flags h ha v, ⟨?_, ⟨fun b hb => ?_, fun k => ?_⟩, ?_, ?_⟩, ?_⟩
  · have hf := s.flags_setFlags (s.flags &&& ~~~v)
    rw [State.flags, (s.setFlags_frame _).1] at hf
    exact hf
  · exact s.devReg_setFlags_other _ hb.symm
  · exact State.devFifo_congr (by simp) k
  · simp [State.okRec]
  · simp
  · exact s.edges_setFlags (s.flags &&& ~~~v)

/-- A write at a register the device owns gives it a free value (20_memory.md R71). -/
theorem busWrite_deviceOwned {s : State} {a : Addr} (h : BusReady s) (ha : a ≠ s.cfg.aFifo) (hi : a ≠ s.cfg.aIrqFlags)
    (ho : a = s.cfg.aFifoRxCurrent ∨ a = s.cfg.aRxNbBytes) (v : Byte) :
    ∃ t, busWrite a [v] s = .done [] t ∧ RegWritten s t a v (Config.freeByte s.drawn) ∧ t.drawn = s.drawn + 1 := by
  have hw : busWrite a [v] s =
      .done [] (({ s.putReg a (Config.freeByte s.drawn) with drawn := s.drawn + 1 } : State).closeTxn .wr a [v]) := by
    simp [busWrite, h.busFault, h.owner, h.busFails, devWrite, devRegWrite, ha, hi, ho]
  exact ⟨_, hw, ⟨s.devReg_putReg_same a _, ⟨fun b hb => s.devReg_putReg_other _ hb.symm, fun _ => rfl⟩, rfl, rfl⟩, rfl⟩

/-! ## Writes at the FIFO register -/

/-- Of the bytes of a FIFO write that go to one cell the last stays (20_memory.md R68), also where the write is longer
than the FIFO. -/
theorem fifoWrite_last {size : Nat} (bs : List Byte) :
    ∀ (m : Memory) {p k : Nat}, p < size → (hk : k < bs.length) →
      (∀ j, k < j → j < bs.length → (p + j) % size ≠ (p + k) % size) →
      (fifoWrite size m p bs).read ((p + k) % size) = bs[k] := by
  induction bs with
  | nil => intro m p k _ hk; simp at hk
  | cons b bs ih =>
    intro m p k hp hk hlast
    have h0 : 0 < size := by omega
    have hshift : ∀ j, (fifoNext size p + j) % size = (p + (j + 1)) % size := fun j => by
      rw [fifoNext, Nat.mod_add_mod, Nat.add_assoc, Nat.add_comm 1]
    rw [fifoWrite]
    cases k with
    | zero =>
      rw [Nat.add_zero, Nat.mod_eq_of_lt hp] at hlast ⊢
      rw [fifoWrite_other bs _ (fifoNext_lt p h0), Memory.read_write_same, List.getElem_cons_zero]
      intro j hj
      rw [hshift]
      exact hlast (j + 1) (by omega) (by simpa using hj)
    | succ k =>
      rw [← hshift, List.getElem_cons_succ]
      refine ih (m.write p b) (fifoNext_lt p h0) (by simpa using hk) fun j hkj hj => ?_
      rw [hshift, hshift]
      exact hlast (j + 1) (by omega) (by simpa using hj)

/-- What a completed write at the FIFO register leaves: the bytes in the cells from the pointer on, the later one where
two meet, the pointer moved on, the rest of the device as it was, one record, and the port untouched. -/
structure FifoWritten (s t : State) (data : List Byte) : Prop where
  stored : ∀ k, (h : k < data.length) → (∀ j, k < j → j < data.length → s.fifoCell j ≠ s.fifoCell k) →
    t.devFifo (s.fifoCell k) = data[k]
  others : ∀ c, (∀ k, k < data.length → s.fifoCell k ≠ c) → t.devFifo c = s.devFifo c
  pointer : t.devReg s.cfg.aFifoAddrPtr = BitVec.ofNat 8 (s.fifoCell data.length)
  registers : ∀ b, b ≠ s.cfg.aFifoAddrPtr → t.devReg b = s.devReg b
  trace : t.trace = s.trace ++ [s.okRec .wr s.cfg.aFifo data]
  host : t.host = s.host

theorem busWrite_fifoWritten {s : State} (h : BusReady s) (hp : s.fifoPtr < s.cfg.fifoSize) (d : List Byte) :
    ∃ t, busWrite s.cfg.aFifo d s = .done [] t ∧ FifoWritten s t d :=
  ⟨_, busWrite_fifo h hp d,
    { stored := fun _ hk hlast => fifoWrite_last d s.dev.fifo hp hk hlast
      others := fun _ hc => fifoWrite_other d s.dev.fifo hp hc
      pointer := State.devReg_putReg_same _ s.cfg.aFifoAddrPtr _
      registers := fun _ hb => State.devReg_putReg_other _ _ hb.symm
      trace := rfl
      host := rfl }⟩

/-! ## The commands, by their transaction -/

section
variable {s t : State} {a : Addr} {bs : List Byte}

theorem State.endedOk_host (h : t.host = s.host) (r : Word32) : (t.endedOk r).host = (s.endedOk r).host := by
  simp only [State.endedOk, h]

theorem exec_rdreg_done (hs : HostAt s ⟨.xTxn, .none⟩) (h : busRead a 1 s = .done bs t) :
    exec (.rdreg a) s = .next (t.endedOk ((bs.headD 0).setWidth 32)) := by
  have hb : rdregBody a s = .done ((bs.headD 0).setWidth 32) t := by
    simp only [rdregBody, hs.seq, readReg, h, Txn.andThen]
  exact (exec_at_e3 rfl hs.pos).trans (congrArg _ hb)

theorem exec_wrreg_done {v : Byte} (hs : HostAt s ⟨.xTxn, .none⟩) (h : busWrite a [v] s = .done bs t) :
    exec (.wrreg a v) s = .next (t.endedOk 0) := by
  have hb : wrregBody a v s = .done 0 t := by simp only [wrregBody, hs.seq, writeReg, h, Txn.andThen]
  exact (exec_at_e3 rfl hs.pos).trans (congrArg _ hb)

theorem exec_rdburst_zero (hs : HostAt s ⟨.xTxn, .none⟩) :
    exec (.rdburst a 0) s = .next (({ s with host := { s.host with rlen := 0 } } : State).endedOk 0) := by
  have hb : rdburstBody a 0 s = .done 0 { s with host := { s.host with rlen := 0 } } := by
    simp only [rdburstBody, hs.seq, if_true]
  exact (exec_at_e3 rfl hs.pos).trans (congrArg _ hb)

theorem exec_rdburst_done {n : Byte} (hs : HostAt s ⟨.xTxn, .none⟩) (hn : n ≠ 0)
    (h : busRead a n.toNat s = .done bs t) :
    exec (.rdburst a n) s = .next ((t.deliver bs n).endedOk (n.setWidth 32)) := by
  have hb : rdburstBody a n s = .done (n.setWidth 32) (t.deliver bs n) := by
    simp only [rdburstBody, hs.seq, if_neg hn, h, Txn.andThen]
  exact (exec_at_e3 rfl hs.pos).trans (congrArg _ hb)

theorem exec_rdburst_one (hs : HostAt s ⟨.xTxn, .none⟩) (h : busRead a 1 s = .done bs t) :
    exec (.rdburst a 1) s = .next ((t.deliver bs 1).endedOk 1) := exec_rdburst_done hs (by decide) h

theorem exec_wrburst_zero (hs : HostAt s ⟨.xTxn, .none⟩) : exec (.wrburst a 0) s = .next (s.endedOk 0) := by
  have hb : wrburstBody a 0 s = .done 0 s := by simp only [wrburstBody, hs.seq, if_true]
  exact (exec_at_e3 rfl hs.pos).trans (congrArg _ hb)

theorem exec_wrburst_done {n : Byte} (hs : HostAt s ⟨.xTxn, .none⟩) (hn : n ≠ 0)
    (h : busWrite a (s.pe.buf.take n.toNat) s = .done bs t) :
    exec (.wrburst a n) s = .next (t.endedOk (n.setWidth 32)) := by
  have hb : wrburstBody a n s = .done (n.setWidth 32) t := by
    simp only [wrburstBody, hs.seq, if_neg hn, h, Txn.andThen]
  exact (exec_at_e3 rfl hs.pos).trans (congrArg _ hb)

theorem exec_busRd_none (h : s.busPort.want = 0) : exec (.busRd a) s = .next (s.closeBus []) := if_pos h

theorem exec_busRd_done (hw : s.busPort.want ≠ 0) (h : busRead a s.busPort.want.toNat s = .done bs t) :
    exec (.busRd a) s = .next (t.closeBus bs) := (if_neg hw).trans (congrArg busPortEnd h)

theorem exec_busRd_one (hw : s.busPort.want = 1) (h : busRead a 1 s = .done bs t) :
    exec (.busRd a) s = .next (t.closeBus bs) := exec_busRd_done (by simp [hw]) (by rw [hw]; exact h)

theorem exec_busWr_none (h : s.busPort.out = []) : exec (.busWr a) s = .next (s.closeBus []) := if_pos h

theorem exec_busWr_done (hw : s.busPort.out ≠ []) (h : busWrite a s.busPort.out s = .done bs t) :
    exec (.busWr a) s = .next (t.closeBus bs) := (if_neg hw).trans (congrArg busPortEnd h)

end

/-! ## Single registers -/

theorem State.fifoCell_zero {s : State} (hp : s.fifoPtr < s.cfg.fifoSize) : s.fifoCell 0 = s.fifoPtr :=
  Nat.mod_eq_of_lt hp

/-- Settles O10, by the kind of address: stored, the FIFO, free. -/
theorem rdregReturnsTheRegister : Obligations.RdregReturnsTheRegister := by
  unfold Obligations.RdregReturnsTheRegister
  refine fun s a hs => ⟨fun hr => ?_, fun ha hp => ?_, fun ha hr => ?_⟩
  · exact exec_rdreg_done hs (busRead_stored hs.ready hr)
  · subst ha
    rw [exec_rdreg_done hs (busRead_fifo hs.ready hp 1), ← State.fifoCell_zero hp]
    rfl
  · exact ⟨_, exec_rdreg_done hs (busRead_free hs.ready ha hr), rfl, rfl, rfl, rfl, rfl⟩

/-- Settles O11, by the kind of register: plain, the flags, owned by the device, the FIFO. -/
theorem wrregWritesTheRegister : Obligations.WrregWritesTheRegister := by
  unfold Obligations.WrregWritesTheRegister
  refine fun s a v hs => ⟨fun hp => ?_, fun ha hi => ?_, fun ha hi ho => ?_, fun ha hp => ?_⟩
  · exact exec_wrreg_done hs (busWrite_plain hs.ready hp v)
  · obtain ⟨t, ht, hw, he⟩ := busWrite_flagsRegister hs.ready ha hi v
    exact ⟨_, exec_wrreg_done hs ht, hw.reg, hw.others, he, hw.trace, State.endedOk_host hw.host 0, rfl⟩
  · obtain ⟨t, ht, hw, hd⟩ := busWrite_deviceOwned hs.ready ha hi ho v
    exact ⟨_, exec_wrreg_done hs ht, hw.reg, hd, hw.others, hw.trace, State.endedOk_host hw.host 0, rfl⟩
  · subst ha
    obtain ⟨t, ht, hw⟩ := busWrite_fifoWritten hs.ready hp [v]
    have hcell : t.devFifo s.fifoPtr = v := by
      rw [← State.fifoCell_zero hp]
      exact hw.stored 0 Nat.one_pos fun j h0 hj => absurd hj (by simp; omega)
    have hothers : ∀ k, k ≠ s.fifoPtr → t.devFifo k = s.devFifo k := fun k hk => hw.others k fun j hj => by
      obtain rfl : j = 0 := by simpa using hj
      rw [State.fifoCell_zero hp]
      exact hk.symm
    exact ⟨_, exec_wrreg_done hs ht, hcell, hothers, hw.pointer, hw.registers, hw.trace,
      State.endedOk_host hw.host 0, rfl⟩

/-! ## Bursts -/

/-- Settles O12, by the number of bytes and the kind of address. -/
theorem rdburstFillsTheBuffer : Obligations.RdburstFillsTheBuffer := by
  unfold Obligations.RdburstFillsTheBuffer
  refine fun s a n hs => ⟨fun hn => ?_, fun hn hr => ?_, fun hn ha hr => ?_, fun hn ha hp => ?_⟩
  · subst hn
    exact exec_rdburst_zero hs
  · subst hn
    exact exec_rdburst_one hs (busRead_stored hs.ready hr)
  · subst hn
    exact ⟨_, exec_rdburst_one hs (busRead_free hs.ready ha hr), rfl, rfl, rfl, rfl, rfl⟩
  · subst ha
    exact exec_rdburst_done hs hn (busRead_fifo hs.ready hp n.toNat)

theorem take_one_eq_headD {l : List Byte} (h : l.length = 255) : l.take 1 = [l.headD 0] := by
  cases l with
  | nil => simp at h
  | cons b l => rfl

/-- Settles O13, by the number of bytes and the kind of register. -/
theorem wrburstStoresTheBuffer : Obligations.WrburstStoresTheBuffer := by
  unfold Obligations.WrburstStoresTheBuffer
  intro s a n hs hl
  have hone : n = 1 → s.pe.buf.take n.toNat = [s.pe.buf.headD 0] := by
    rintro rfl
    exact take_one_eq_headD hl
  refine ⟨fun hn => ?_, fun hn hp => ?_, fun hn ha hi => ?_, fun hn ha hi ho => ?_, fun hn ha hp => ?_⟩
  · subst hn
    exact exec_wrburst_zero hs
  · have hw := busWrite_plain hs.ready hp (s.pe.buf.headD 0)
    rw [← hone hn] at hw
    subst hn
    exact exec_wrburst_done hs (by decide) hw
  · obtain ⟨t, ht, hw, he⟩ := busWrite_flagsRegister hs.ready ha hi (s.pe.buf.headD 0)
    rw [← hone hn] at ht
    subst hn
    exact ⟨_, exec_wrburst_done hs (by decide) ht, hw.reg, hw.others, he, hw.trace, State.endedOk_host hw.host 1, rfl⟩
  · obtain ⟨t, ht, hw, hd⟩ := busWrite_deviceOwned hs.ready ha hi ho (s.pe.buf.headD 0)
    rw [← hone hn] at ht
    subst hn
    exact ⟨_, exec_wrburst_done hs (by decide) ht, hw.reg, hd, hw.others, hw.trace, State.endedOk_host hw.host 1, rfl⟩
  · subst ha
    obtain ⟨t, ht, hw⟩ := busWrite_fifoWritten hs.ready hp (s.pe.buf.take n.toNat)
    have hlen : (s.pe.buf.take n.toNat).length = n.toNat := by
      rw [List.length_take, hl]
      omega
    obtain ⟨hstored, hothers, hptr, hregs, htrace, hhost⟩ := hw
    rw [hlen] at hothers hptr
    refine ⟨_, exec_wrburst_done hs hn ht, fun k hk hlast => ?_, hothers, hptr, hregs, htrace,
      State.endedOk_host hhost _, rfl⟩
    have hc := hstored k (hk.trans_eq hlen.symm) fun j hj hlt => hlast j hj (hlt.trans_eq hlen)
    rw [List.getElem_take] at hc
    exact (List.getElem?_eq_getElem (by omega)).trans (congrArg some hc.symm)

/-! ## The bus port -/

/-- Settles O15: each bracket is the transaction its kind and its bytes name, and closes. -/
theorem busTransactionsComplete : Obligations.BusTransactionsComplete := by
  unfold Obligations.BusTransactionsComplete
  intro s a ho hb hf
  have hs : BusReady s := ⟨ho, hb, hf⟩
  refine ⟨exec_busRd_none, exec_busWr_none, fun hw hr => ?_, fun hw ha hr => ?_, fun hw ha hp => ?_, fun v hv hp => ?_,
    fun v hv ha hi => ?_, fun v hv ha hi hd => ?_, fun hw ha hp => ?_⟩
  · exact exec_busRd_one hw (busRead_stored hs hr)
  · exact ⟨_, exec_busRd_one hw (busRead_free hs ha hr), rfl, rfl, rfl, rfl⟩
  · subst ha
    exact exec_busRd_done hw (busRead_fifo hs hp _)
  · exact exec_busWr_done (by simp [hv]) (hv ▸ busWrite_plain hs hp v)
  · obtain ⟨t, ht, hw, he⟩ := busWrite_flagsRegister hs ha hi v
    exact ⟨_, exec_busWr_done (by simp [hv]) (hv ▸ ht), hw.reg, hw.others, he, hw.trace, rfl⟩
  · obtain ⟨t, ht, hw, hdrawn⟩ := busWrite_deviceOwned hs ha hi hd v
    exact ⟨_, exec_busWr_done (by simp [hv]) (hv ▸ ht), hw.reg, hdrawn, hw.others, hw.trace, rfl⟩
  · subst ha
    obtain ⟨t, ht, hfifo⟩ := busWrite_fifoWritten hs hp s.busPort.out
    exact ⟨_, exec_busWr_done hw ht, hfifo.stored, hfifo.others, hfifo.pointer, hfifo.registers, hfifo.trace, rfl⟩

end Sys2Proof.Machine
end

section
namespace Sys2Proof.Machine

/-! The operands of the Modem Configurator as numbers: the clamps, the power setting, the frequency function and its
inverse. -/

/-! ## Clamps and the power setting -/

/-- A clamp between two bounds that are bytes, as a number. -/
theorem clampByte_toNat (v : Byte) {lo hi : Nat} (hlo : lo ≤ hi) (hhi : hi < 2 ^ 8) :
    (clampByte v lo hi).toNat = max lo (min v.toNat hi) := by
  unfold clampByte
  split
  · rw [BitVec.toNat_ofNat, Nat.mod_eq_of_lt (hlo.trans_lt hhi)]
    omega
  · split
    · rw [BitVec.toNat_ofNat, Nat.mod_eq_of_lt hhi]
      omega
    · omega

theorem clampSf_toNat (v : Byte) : (clampSf v).toNat = max 6 (min v.toNat 12) :=
  clampByte_toNat v (by decide) (by decide)

theorem clampBw_toNat (v : Byte) : (clampBw v).toNat = min v.toNat 9 :=
  (clampByte_toNat v (by decide) (by decide)).trans (Nat.zero_max _)

theorem clampCr_toNat (v : Byte) : (clampCr v).toNat = max 1 (min v.toNat 4) :=
  clampByte_toNat v (by decide) (by decide)

/-- The setting of 2 to 17 nearest to `d` (41_modem_configurator.md R160). -/
def nearestLow (d : Int) : Int := if d < 2 then 2 else if 17 < d then 17 else d

theorem nearestLow_valid (d : Int) : 2 ≤ nearestLow d ∧ nearestLow d ≤ 17 := by
  unfold nearestLow
  omega

/-- It is the only one so near. -/
theorem nearestLow_nearest (d : Int) {p : Int} (hp : 2 ≤ p ∧ p ≤ 17) :
    (d - nearestLow d).natAbs ≤ (d - p).natAbs ∧ ((d - nearestLow d).natAbs = (d - p).natAbs → nearestLow d = p) := by
  unfold nearestLow
  omega

/-- SETPWR chooses between the nearest low setting and the maximum, by distance and then by size (R160). -/
theorem nearestPower_eq (d m : Int) :
    nearestPower d m =
      if (d - m).natAbs < (d - nearestLow d).natAbs then m
      else if (d - nearestLow d).natAbs < (d - m).natAbs then nearestLow d else min (nearestLow d) m := rfl

theorem nearestPower_valid (d m : Int) : (2 ≤ nearestPower d m ∧ nearestPower d m ≤ 17) ∨ nearestPower d m = m := by
  have hlow := nearestLow_valid d
  rw [nearestPower_eq]
  omega

/-- No valid setting is nearer to `d`, and none below the selected one is as near (R160). -/
theorem nearestPower_nearest (d m : Int) {p : Int} (hp : (2 ≤ p ∧ p ≤ 17) ∨ p = m) :
    (d - nearestPower d m).natAbs ≤ (d - p).natAbs ∧
      ((d - nearestPower d m).natAbs = (d - p).natAbs → nearestPower d m ≤ p) := by
  rw [nearestPower_eq]
  rcases hp with hp | rfl
  · obtain ⟨hle, heq⟩ := nearestLow_nearest d hp
    omega
  · omega

/-- The selected setting fits the signed byte that holds it. -/
theorem powerSetting_toInt (c : Config) (v : Byte) :
    (powerSetting c v).toInt = nearestPower v.toInt c.pwrMaxDbm.toInt := by
  have hlo := c.pwrMaxDbm.le_toInt
  have hhi := c.pwrMaxDbm.toInt_lt
  have hv := nearestPower_valid v.toInt c.pwrMaxDbm.toInt
  unfold powerSetting
  rw [BitVec.toInt_ofInt_eq_self (by decide)] <;> omega

/-- Settles O17: the clamps compare zero-extended bytes, and the setting of SETPWR is the nearest valid one. -/
theorem operandsClampToNearestValid : Obligations.OperandsClampToNearestValid := by
  unfold Obligations.OperandsClampToNearestValid
  exact ⟨fun v => ⟨clampSf_toNat v, clampBw_toNat v, clampCr_toNat v⟩, powerSetting_toInt,
    fun d m => ⟨nearestPower_valid d m, fun _ => nearestPower_nearest d m⟩⟩

/-! ## The frequency function and its inverse -/

theorem frf_lt (f osc : Nat) : frf f osc < 2 ^ 24 := by
  have h := Nat.min_le_right ((f * 2 ^ 20 + osc) / (2 * osc)) (2 ^ 24 - 1)
  exact Nat.lt_of_le_pred (by decide) h

/-- Below saturation the register value is the quotient itself: `f * 2^19 / osc` plus a half, rounded down. -/
theorem frf_bounds {f osc : Nat} (ho : 0 < osc) (h : f * 2 ^ 20 + osc < 2 * osc * 2 ^ 24) :
    2 * osc * frf f osc ≤ f * 2 ^ 20 + osc ∧ f * 2 ^ 20 + osc < 2 * osc * (frf f osc + 1) := by
  have hq : (f * 2 ^ 20 + osc) / (2 * osc) < 2 ^ 24 := Nat.div_lt_of_lt_mul h
  have he : frf f osc = (f * 2 ^ 20 + osc) / (2 * osc) := Nat.min_eq_left (Nat.le_pred_of_lt hq)
  rw [he]
  exact ⟨Nat.mul_div_le _ _, Nat.lt_mul_div_succ _ (by omega)⟩

theorem frf_saturated {f osc : Nat} (ho : 0 < osc) (h : 2 * osc * (2 ^ 24 - 1) ≤ f * 2 ^ 20 + osc) :
    frf f osc = 2 ^ 24 - 1 :=
  Nat.min_eq_right ((Nat.le_div_iff_mul_le (by omega)).2 ((Nat.mul_comm _ _).trans_le h))

/-- The inverse is a quotient too: with an allowed oscillator it never saturates (R159). -/
theorem freqOf_bounds {v osc : Nat} (hv : v < 2 ^ 24) (ho : osc < 2 ^ 27) :
    2 ^ 19 * freqOf v osc ≤ v * osc + 2 ^ 18 ∧ v * osc + 2 ^ 18 < 2 ^ 19 * (freqOf v osc + 1) := by
  have hm : v * osc ≤ (2 ^ 24 - 1) * 2 ^ 27 := Nat.mul_le_mul (Nat.le_pred_of_lt hv) ho.le
  unfold freqOf
  omega

/-- Settles O19: the value is the floor of a quotient, below its saturation and at it. -/
theorem frequencyRegisterIsNearest : Obligations.FrequencyRegisterIsNearest := by
  unfold Obligations.FrequencyRegisterIsNearest
  exact fun f osc ho =>
    ⟨fun h => frf_bounds ho (h.trans_le (Nat.mul_le_mul_left _ (Nat.sub_le _ _))), frf_saturated ho⟩

/-- Settles O20: both roundings are by at most a half of their unit, and the two errors add. -/
theorem frequencyRoundTrip : Obligations.FrequencyRoundTrip := by
  unfold Obligations.FrequencyRoundTrip
  intro f osc ho hosc hf
  obtain ⟨hlo, hhi⟩ := frf_bounds ho hf
  obtain ⟨hlo', hhi'⟩ := freqOf_bounds (frf_lt f.toNat osc) hosc
  have hsucc : 2 * osc * (frf f.toNat osc + 1) = 2 * (frf f.toNat osc * osc) + 2 * osc := by ring
  have hmul : 2 * osc * frf f.toNat osc = 2 * (frf f.toNat osc * osc) := by ring
  rw [hsucc] at hhi
  rw [hmul] at hlo
  generalize frf f.toNat osc * osc = product at *
  omega

end Sys2Proof.Machine
end

section
namespace Sys2Proof.Machine

/-! The micro-steps of the setters and the getters on a healthy bus. -/

/-! ## How a micro-step of a body ends the step of its command -/

section
variable {i : Instr} {s t : State} {q : Seq}

theorem exec_of_body_cont (hi : usesEnvelope i = true) (hs : HostAt s q) (hb : (envelopeOf s.cfg i).body s = .cont t) :
    exec i s = .next t := (exec_at_e3 hi hs.pos).trans (congrArg _ hb)

theorem exec_of_body_done {r : Word32} (hi : usesEnvelope i = true) (hs : HostAt s q)
    (hb : (envelopeOf s.cfg i).body s = .done r t) : exec i s = .next (t.endedOk r) :=
  (exec_at_e3 hi hs.pos).trans (congrArg _ hb)

end

/-! ## A field inside its register -/

/-- A value that fits its field is inserted whole. -/
theorem insertField_of_fits {old mask : Byte} {pos : Nat} {val : Byte} (h : (val <<< pos) &&& mask = val <<< pos) :
    insertField old mask pos val = (old &&& ~~~mask) ||| (val <<< pos) := by
  rw [insertField, h]

/-- Every byte shifted up by 4 lies in the upper nibble, the field of the spreading factor and of the bandwidth. -/
theorem shiftLeft_four_fits (v : Byte) : (v <<< 4) &&& 0xF0 = v <<< 4 := by
  revert v
  decide

/-- A clamped coding rate fits its three bits. -/
theorem clampCr_fits (v : Byte) : (clampCr v <<< 1) &&& maskCr = clampCr v <<< 1 := by
  revert v
  decide

theorem crcBit_fits (en : BitVec 1) : (en.setWidth 8 <<< 2) &&& maskCrc = en.setWidth 8 <<< 2 := by
  revert en
  decide

/-! ## The field read-modify-write (41_modem_configurator.md R151) -/

section
variable {s : State} {a : Addr} {mask : Byte} {pos : Nat} {val : Byte} {commit : State → State}

theorem rmwBody_read (hs : HostAt s ⟨.cRd, .none⟩) (hr : readsStored s a) :
    rmwBody a mask pos val commit s =
      .cont { s.afterRead a with seq := ⟨.cWr, .none⟩, pe := { s.pe with tmp := s.devReg a } } := by
  simp only [rmwBody, hs.seq, readReg_stored hs.ready hr]
  rfl

theorem rmwBody_write (hs : HostAt s ⟨.cWr, .none⟩) (hp : plainAddr s.cfg a) :
    rmwBody a mask pos val commit s =
      .done (val.setWidth 32) (commit (s.afterWrite a (insertField s.pe.tmp mask pos val))) := by
  simp only [rmwBody, hs.seq, writeReg_plain hs.ready hp]

/-- The write of a value that fits its field. -/
theorem rmwBody_write_fits (hs : HostAt s ⟨.cWr, .none⟩) (hp : plainAddr s.cfg a)
    (hf : (val <<< pos) &&& mask = val <<< pos) :
    rmwBody a mask pos val commit s =
      .done (val.setWidth 32) (commit (s.afterWrite a ((s.pe.tmp &&& ~~~mask) ||| (val <<< pos)))) := by
  rw [rmwBody_write hs hp, insertField_of_fits hf]

end

/-- Settles O16: the four setters are one read-modify-write, of values that fit their fields. -/
theorem fieldSettersReadModifyWrite : Obligations.FieldSettersReadModifyWrite := by
  unfold Obligations.FieldSettersReadModifyWrite
  refine fun s v en hwf => ⟨fun hs i a hia => ?_, fun hs => ⟨?_, ?_, ?_, ?_⟩⟩
  · simp only [List.mem_cons, Prod.mk.injEq, List.not_mem_nil, or_false] at hia
    obtain ⟨rfl, rfl⟩ | ⟨rfl, rfl⟩ | ⟨rfl, rfl⟩ | ⟨rfl, rfl⟩ := hia
    · exact exec_of_body_cont rfl hs (rmwBody_read hs (reads_aModemConfig2 hwf))
    · exact exec_of_body_cont rfl hs (rmwBody_read hs (reads_aModemConfig1 hwf))
    · exact exec_of_body_cont rfl hs (rmwBody_read hs (reads_aModemConfig1 hwf))
    · exact exec_of_body_cont rfl hs (rmwBody_read hs (reads_aModemConfig2 hwf))
  · exact exec_of_body_done rfl hs (rmwBody_write_fits hs (Config.plain_aModemConfig2 hwf) (shiftLeft_four_fits _))
  · exact exec_of_body_done rfl hs (rmwBody_write_fits hs (Config.plain_aModemConfig1 hwf) (shiftLeft_four_fits _))
  · exact exec_of_body_done rfl hs (rmwBody_write_fits hs (Config.plain_aModemConfig1 hwf) (clampCr_fits v))
  · exact exec_of_body_done rfl hs (rmwBody_write_fits hs (Config.plain_aModemConfig2 hwf) (crcBit_fits en))

/-! ## The setters of whole registers (R156, R158, R160) -/

section
variable {s : State}

theorem setpreBody_msb (hs : HostAt s ⟨.cWr, .none⟩) (hwf : s.cfg.wf = true) (n : BitVec 16) :
    setpreBody n s = .cont { s.afterWrite s.cfg.aPreambleMsb (n.extractLsb' 8 8) with seq := ⟨.cW2, .none⟩ } := by
  simp only [setpreBody, hs.seq, writeReg_plain hs.ready (Config.plain_aPreambleMsb hwf)]
  rfl

theorem setpreBody_lsb (hs : HostAt s ⟨.cW2, .none⟩) (hwf : s.cfg.wf = true) (n : BitVec 16) :
    setpreBody n s = .done (n.setWidth 32) ((s.afterWrite s.cfg.aPreambleLsb (n.extractLsb' 0 8)).putPre n) := by
  simp only [setpreBody, hs.seq, writeReg_plain hs.ready (Config.plain_aPreambleLsb hwf)]

theorem setfreqBody_msb (hs : HostAt s ⟨.cWr, .none⟩) (hwf : s.cfg.wf = true) (f : Word32) :
    setfreqBody f s =
      .cont { s.afterWrite s.cfg.aFrfMsb ((frfOf s.cfg f).extractLsb' 16 8) with seq := ⟨.cW2, .none⟩ } := by
  simp only [setfreqBody, hs.seq, writeReg_plain hs.ready (Config.plain_aFrfMsb hwf)]
  rfl

theorem setfreqBody_mid (hs : HostAt s ⟨.cW2, .none⟩) (hwf : s.cfg.wf = true) (f : Word32) :
    setfreqBody f s =
      .cont { s.afterWrite s.cfg.aFrfMid ((frfOf s.cfg f).extractLsb' 8 8) with seq := ⟨.cW3, .none⟩ } := by
  simp only [setfreqBody, hs.seq, writeReg_plain hs.ready (Config.plain_aFrfMid hwf)]
  rfl

theorem setfreqBody_lsb (hs : HostAt s ⟨.cW3, .none⟩) (hwf : s.cfg.wf = true) (f : Word32) :
    setfreqBody f s =
      .done ((frfOf s.cfg f).setWidth 32) ((s.afterWrite s.cfg.aFrfLsb ((frfOf s.cfg f).extractLsb' 0 8)).putFreq f) := by
  simp only [setfreqBody, hs.seq, writeReg_plain hs.ready (Config.plain_aFrfLsb hwf)]

theorem setpwrBody_config (hs : HostAt s ⟨.cWr, .none⟩) (hwf : s.cfg.wf = true) (p : Byte) :
    setpwrBody p s = .cont { s.afterWrite s.cfg.aPaConfig (paConfigByte s.cfg p) with seq := ⟨.cW2, .none⟩ } := by
  simp only [setpwrBody, hs.seq, writeReg_plain hs.ready (Config.plain_aPaConfig hwf)]
  rfl

theorem setpwrBody_dac (hs : HostAt s ⟨.cW2, .none⟩) (hwf : s.cfg.wf = true) (p : Byte) :
    setpwrBody p s = .done (p.setWidth 32) ((s.afterWrite s.cfg.aPaDac (paDacByte s.cfg p)).putPwr p) := by
  simp only [setpwrBody, hs.seq, writeReg_plain hs.ready (Config.plain_aPaDac hwf)]

end

/-- The bits of a number from bit `k` on, as a number: the number without its low `k` bits. -/
theorem extractLsb'_ofNat {w k n v : Nat} (h : k + n ≤ w) :
    (BitVec.ofNat w v).extractLsb' k n = BitVec.ofNat n (v / 2 ^ k) := by
  apply BitVec.eq_of_getLsbD_eq
  intro j hj
  have hjw : j + k < w := by omega
  simp only [BitVec.getLsbD_extractLsb', BitVec.getLsbD_ofNat, Nat.testBit_div_two_pow, hj, hjw, decide_true,
    Bool.true_and, Nat.add_comm k j]

theorem frfOf_setWidth (c : Config) (f : Word32) : (frfOf c f).setWidth 32 = BitVec.ofNat 32 (frf f.toNat c.oscHz) := by
  have h := frf_lt f.toNat c.oscHz
  apply BitVec.eq_of_toNat_eq
  simp only [frfOf, BitVec.toNat_setWidth, BitVec.toNat_ofNat]
  omega

/-- Settles O18: each micro-step is one plain write of one byte of the operand's register value. -/
theorem wideSettersWriteBytesInOrder : Obligations.WideSettersWriteBytesInOrder := by
  unfold Obligations.WideSettersWriteBytesInOrder
  intro s n f hwf
  have hmsb : (frfOf s.cfg f).extractLsb' 16 8 = BitVec.ofNat 8 (frf f.toNat s.cfg.oscHz / 2 ^ 16) :=
    extractLsb'_ofNat (by decide)
  have hmid : (frfOf s.cfg f).extractLsb' 8 8 = BitVec.ofNat 8 (frf f.toNat s.cfg.oscHz / 2 ^ 8) :=
    extractLsb'_ofNat (by decide)
  have hlsb : (frfOf s.cfg f).extractLsb' 0 8 = BitVec.ofNat 8 (frf f.toNat s.cfg.oscHz) :=
    (extractLsb'_ofNat (by decide)).trans (by rw [Nat.pow_zero, Nat.div_one])
  rw [← hmsb, ← hmid, ← hlsb, ← frfOf_setWidth]
  refine ⟨fun hs => ⟨?_, ?_⟩, fun hs => ⟨?_, ?_⟩, fun hs => ?_⟩
  · exact exec_of_body_cont rfl hs (setpreBody_msb hs hwf n)
  · exact exec_of_body_cont rfl hs (setfreqBody_msb hs hwf f)
  · exact exec_of_body_done rfl hs (setpreBody_lsb hs hwf n)
  · exact exec_of_body_cont rfl hs (setfreqBody_mid hs hwf f)
  · exact exec_of_body_done rfl hs (setfreqBody_lsb hs hwf f)

/-- Settles O21: two plain writes, of the two bytes of the selected setting. -/
theorem setpwrWritesThePair : Obligations.SetpwrWritesThePair := by
  unfold Obligations.SetpwrWritesThePair
  rintro s d p hwf rfl
  exact ⟨fun hs => exec_of_body_cont rfl hs (setpwrBody_config hs hwf _),
    fun hs => exec_of_body_done rfl hs (setpwrBody_dac hs hwf _)⟩

/-! ## The getters (R162 to R167) -/

section
variable {s : State}

theorem getBody_read {a : Addr} {field : Byte → Word32} (hs : HostAt s ⟨.gR1, .none⟩) (hr : readsStored s a) :
    getBody a field s = .done (field (s.devReg a)) (s.afterRead a) := by
  simp only [getBody, hs.seq, readReg_stored hs.ready hr]

theorem getpreBody_msb (hs : HostAt s ⟨.gR1, .none⟩) (hwf : s.cfg.wf = true) :
    getpreBody s = .cont { s.afterRead s.cfg.aPreambleMsb with
      seq := ⟨.gR2, .none⟩, pe := { s.pe with getHi := s.devReg s.cfg.aPreambleMsb } } := by
  simp only [getpreBody, hs.seq, readReg_stored hs.ready (reads_aPreambleMsb hwf)]
  rfl

theorem getpreBody_lsb (hs : HostAt s ⟨.gR2, .none⟩) (hwf : s.cfg.wf = true) :
    getpreBody s =
      .done ((s.pe.getHi ++ s.devReg s.cfg.aPreambleLsb).setWidth 32) (s.afterRead s.cfg.aPreambleLsb) := by
  simp only [getpreBody, hs.seq, readReg_stored hs.ready (reads_aPreambleLsb hwf)]
  rfl

theorem getfreqBody_msb (hs : HostAt s ⟨.gR1, .none⟩) (hwf : s.cfg.wf = true) :
    getfreqBody s = .cont { s.afterRead s.cfg.aFrfMsb with
      seq := ⟨.gR2, .none⟩, pe := { s.pe with getHi := s.devReg s.cfg.aFrfMsb } } := by
  simp only [getfreqBody, hs.seq, readReg_stored hs.ready (reads_aFrfMsb hwf)]
  rfl

theorem getfreqBody_mid (hs : HostAt s ⟨.gR2, .none⟩) (hwf : s.cfg.wf = true) :
    getfreqBody s = .cont { s.afterRead s.cfg.aFrfMid with
      seq := ⟨.gR3, .none⟩, pe := { s.pe with getMid := s.devReg s.cfg.aFrfMid } } := by
  simp only [getfreqBody, hs.seq, readReg_stored hs.ready (reads_aFrfMid hwf)]
  rfl

theorem getfreqBody_lsb (hs : HostAt s ⟨.gR3, .none⟩) (hwf : s.cfg.wf = true) :
    getfreqBody s =
      .done (freqOfBytes s.cfg s.pe.getHi s.pe.getMid (s.devReg s.cfg.aFrfLsb)) (s.afterRead s.cfg.aFrfLsb) := by
  simp only [getfreqBody, hs.seq, readReg_stored hs.ready (reads_aFrfLsb hwf)]
  rfl

end

/-- The upper nibble is what is left of the byte shifted down by 4. -/
theorem extractLsb'_four_four (b : Byte) : (b.extractLsb' 4 4).setWidth 32 = (b >>> 4).setWidth 32 := by
  revert b
  decide

theorem extractLsb'_one_three (b : Byte) : (b.extractLsb' 1 3).setWidth 32 = ((b >>> 1) &&& 7).setWidth 32 := by
  revert b
  decide

theorem extractLsb'_two_one (b : Byte) : (b.extractLsb' 2 1).setWidth 32 = ((b >>> 2) &&& 1).setWidth 32 := by
  revert b
  decide

/-- Bytes put together, most significant first, as a number. -/
theorem append_byte_toNat {w : Nat} (hi : BitVec w) (lo : Byte) : (hi ++ lo).toNat = hi.toNat * 2 ^ 8 + lo.toNat := by
  rw [BitVec.toNat_append, Nat.shiftLeft_eq, Nat.mul_comm, Nat.two_pow_add_eq_or_of_lt lo.isLt]

/-- Settles O23: one read a micro-step, and the field or the bytes put together as the rules give them. -/
theorem gettersReturnDeviceFields : Obligations.GettersReturnDeviceFields := by
  unfold Obligations.GettersReturnDeviceFields
  intro s hwf
  refine ⟨fun hs => ⟨?_, ?_, ?_, ?_, ?_, ?_⟩, fun hs => ⟨?_, ?_⟩, fun hs => ?_⟩
  · rw [← extractLsb'_four_four]
    exact exec_of_body_done rfl hs (getBody_read hs (reads_aModemConfig2 hwf))
  · rw [← extractLsb'_four_four]
    exact exec_of_body_done rfl hs (getBody_read hs (reads_aModemConfig1 hwf))
  · rw [← extractLsb'_one_three]
    exact exec_of_body_done rfl hs (getBody_read hs (reads_aModemConfig1 hwf))
  · rw [← extractLsb'_two_one]
    exact exec_of_body_done rfl hs (getBody_read hs (reads_aModemConfig2 hwf))
  · exact exec_of_body_cont rfl hs (getpreBody_msb hs hwf)
  · exact exec_of_body_cont rfl hs (getfreqBody_msb hs hwf)
  · rw [← append_byte_toNat, BitVec.ofNat_toNat]
    exact exec_of_body_done rfl hs (getpreBody_lsb hs hwf)
  · exact exec_of_body_cont rfl hs (getfreqBody_mid hs hwf)
  · have hbytes : s.pe.getHi.toNat * 2 ^ 16 + s.pe.getMid.toNat * 2 ^ 8 + (s.devReg s.cfg.aFrfLsb).toNat =
        (s.pe.getHi ++ s.pe.getMid ++ s.devReg s.cfg.aFrfLsb).toNat := by
      rw [append_byte_toNat, append_byte_toNat]
      omega
    rw [hbytes]
    exact exec_of_body_done rfl hs (getfreqBody_lsb hs hwf)

end Sys2Proof.Machine
end

section
namespace Sys2Proof.Machine

/-! Commands of the envelope run alone on a healthy bus, from acceptance to their end. -/

/-! ## From acceptance to the body -/

/-- A micro-step of a command run alone. -/
theorem execTimes_step {i : Instr} {s t : State} (h : exec i s = .next t) (n : Nat) :
    execTimes (n + 1) i s = execTimes n i t := by
  rw [execTimes, h]

/-- The state in which a command run alone begins its body: the lock taken, `seq` at the first micro-step. -/
def State.bodyStart (s : State) (i : Instr) : State :=
  { s with lockOwner := .host, host := { s.host with pos := .e3 }, seq := startSeq i, pe := peAtStart s i }

theorem HostFresh.bodyStart {s : State} (h : HostFresh s) (i : Instr) : HostAt (s.bodyStart i) (startSeq i) :=
  ⟨rfl, rfl, rfl, h.busFault, h.busFails⟩

/-- With the lock free the body is reached in two steps, E0 with E1, and E2 (40_register_interface.md R137). -/
theorem execTimes_bodyStart {i : Instr} {s : State} (hi : usesEnvelope i = true) (hc : argCheck s.cfg i = none)
    (h : HostFresh s) (n : Nat) : execTimes (n + 2) i s = execTimes n i (s.bodyStart i) := by
  obtain ⟨d, hwait⟩ : ∃ d, exec i s = .next { s with host := { s.host with pos := .e2 d } } :=
    ⟨_, (commandEntersEnvelope i s hi hc h.pos).1 h.busFault⟩
  have htake := (lockTakenInOneStep i { s with host := { s.host with pos := .e2 d } } d hi rfl).1 h.owner h.busFault
  rw [execTimes_step hwait, execTimes_step htake, peAtStart_takeLock i s s.lockOwner]
  rfl

section
variable {s : State} {q : Seq} (hs : HostAt s q)
include hs

theorem HostAt.afterRead (a : Addr) (q' : Seq) (p : PeRegs) : HostAt { s.afterRead a with seq := q', pe := p } q' :=
  ⟨hs.pos, rfl, hs.owner, hs.busFault, hs.busFails⟩

theorem HostAt.afterWrite (a : Addr) (v : Byte) (q' : Seq) : HostAt { s.afterWrite a v with seq := q' } q' :=
  ⟨hs.pos, rfl, hs.owner, hs.busFault, hs.busFails⟩

end

theorem State.devReg_afterWrite_other (s : State) {a b : Addr} (v : Byte) (h : a ≠ b) :
    (s.afterWrite a v).devReg b = s.devReg b := s.devReg_putReg_other v h

/-- A command run alone for `n` steps has ended OK, and the next one can be run from there. -/
structure EndsOk (i : Instr) (n : Nat) (s t : State) : Prop where
  run : execTimes n i s = .next t
  status : t.host.status = 0
  cfg : t.cfg = s.cfg
  fresh : HostFresh t

/-- A body of `n` micro-steps, the last of which returns OK, on a bus that stays healthy. -/
theorem HostFresh.endsOk {i : Instr} {n : Nat} {s t : State} {r : Word32} (h : HostFresh s)
    (hi : usesEnvelope i = true) (hc : argCheck s.cfg i = none)
    (hrun : execTimes n i (s.bodyStart i) = .next (t.endedOk r)) (hcfg : t.cfg = s.cfg := by rfl)
    (hf : t.busFault = s.busFault := by rfl) (hx : t.busFails = s.busFails := by rfl) :
    EndsOk i (n + 2) s (t.endedOk r) where
  run := (execTimes_bodyStart hi hc h n).trans hrun
  status := rfl
  cfg := hcfg
  fresh := ⟨rfl, rfl, hf.trans h.busFault, hx.trans h.busFails⟩

/-! ## The setters, from acceptance to their end -/

/-- A command whose body is the read-modify-write of one field (41_modem_configurator.md R151). -/
structure FieldSetter (c : Config) (i : Instr) (a : Addr) (mask : Byte) (pos : Nat) (val : Byte) : Prop where
  envelope : usesEnvelope i = true
  check : argCheck c i = none
  start : startSeq i = ⟨.cRd, .none⟩
  body : ∃ commit : State → State,
    (envelopeOf c i).body = rmwBody a mask pos val commit ∧ ∀ t, ∃ x, commit t = { t with x := x }

theorem setsf_fieldSetter (c : Config) (v : Byte) : FieldSetter c (.setsf v) c.aModemConfig2 maskSf 4 (clampSf v) :=
  ⟨rfl, rfl, rfl, _, rfl, fun _ => ⟨_, rfl⟩⟩

theorem setbw_fieldSetter (c : Config) (v : Byte) : FieldSetter c (.setbw v) c.aModemConfig1 maskBw 4 (clampBw v) :=
  ⟨rfl, rfl, rfl, _, rfl, fun _ => ⟨_, rfl⟩⟩

theorem setcr_fieldSetter (c : Config) (v : Byte) : FieldSetter c (.setcr v) c.aModemConfig1 maskCr 1 (clampCr v) :=
  ⟨rfl, rfl, rfl, _, rfl, fun _ => ⟨_, rfl⟩⟩

theorem setcrc_fieldSetter (c : Config) (en : BitVec 1) :
    FieldSetter c (.setcrc en) c.aModemConfig2 maskCrc 2 (en.setWidth 8) :=
  ⟨rfl, rfl, rfl, _, rfl, fun _ => ⟨_, rfl⟩⟩

section
variable {s : State} (h : HostFresh s)
include h

theorem FieldSetter.endsOk {i : Instr} {a : Addr} {mask : Byte} {pos : Nat} {val : Byte}
    (hi : FieldSetter s.cfg i a mask pos val) (hr : readsStored s a) (hp : plainAddr s.cfg a) :
    ∃ t, EndsOk i 4 s t ∧ t.devReg a = insertField (s.devReg a) mask pos val := by
  obtain ⟨henv, hcheck, hstart, commit, hbody, hcommit⟩ := hi
  have hs₁ := h.bodyStart i
  rw [hstart] at hs₁
  have e₁ := exec_of_body_cont henv hs₁ ((congrFun hbody _).trans (rmwBody_read hs₁ hr))
  have hs₂ := hs₁.afterRead a ⟨.cWr, .none⟩ { (s.bodyStart i).pe with tmp := s.devReg a }
  have e₂ := exec_of_body_done henv hs₂ ((congrFun hbody _).trans (rmwBody_write hs₂ hp))
  obtain ⟨x, hx⟩ := hcommit _
  rw [hx] at e₂
  exact ⟨_, h.endsOk henv hcheck ((execTimes_step e₁ 1).trans (execTimes_step e₂ 0)),
    State.devReg_afterWrite_same _ a _⟩

variable (hwf : s.cfg.wf = true)
include hwf

theorem setpre_endsOk (n : BitVec 16) :
    ∃ t, EndsOk (.setpre n) 4 s t ∧ t.devReg s.cfg.aPreambleMsb = n.extractLsb' 8 8 ∧
      t.devReg s.cfg.aPreambleLsb = n.extractLsb' 0 8 := by
  have hs₁ := h.bodyStart (.setpre n)
  have e₁ := exec_of_body_cont (i := .setpre n) rfl hs₁ (setpreBody_msb hs₁ hwf n)
  have hs₂ := hs₁.afterWrite s.cfg.aPreambleMsb (n.extractLsb' 8 8) ⟨.cW2, .none⟩
  have e₂ := exec_of_body_done (i := .setpre n) rfl hs₂ (setpreBody_lsb hs₂ hwf n)
  exact ⟨_, h.endsOk rfl rfl ((execTimes_step e₁ 1).trans (execTimes_step e₂ 0)),
    (State.devReg_afterWrite_other _ _ (Config.named_ne hwf 15 14 (by decide))).trans
      (State.devReg_afterWrite_same _ _ _), State.devReg_afterWrite_same _ _ _⟩

theorem setpwr_endsOk (d : Byte) :
    ∃ t, EndsOk (.setpwr d) 4 s t ∧ t.devReg s.cfg.aPaConfig = paConfigByte s.cfg (powerSetting s.cfg d) ∧
      t.devReg s.cfg.aPaDac = paDacByte s.cfg (powerSetting s.cfg d) := by
  have hs₁ := h.bodyStart (.setpwr d)
  have e₁ := exec_of_body_cont (i := .setpwr d) rfl hs₁ (setpwrBody_config hs₁ hwf _)
  have hs₂ := hs₁.afterWrite s.cfg.aPaConfig (paConfigByte s.cfg (powerSetting s.cfg d)) ⟨.cW2, .none⟩
  have e₂ := exec_of_body_done (i := .setpwr d) rfl hs₂ (setpwrBody_dac hs₂ hwf _)
  exact ⟨_, h.endsOk rfl rfl ((execTimes_step e₁ 1).trans (execTimes_step e₂ 0)),
    (State.devReg_afterWrite_other _ _ (Config.named_ne hwf 18 5 (by decide))).trans
      (State.devReg_afterWrite_same _ _ _), State.devReg_afterWrite_same _ _ _⟩

theorem setfreq_endsOk (f : Word32) :
    ∃ t, EndsOk (.setfreq f) 5 s t ∧ t.devReg s.cfg.aFrfMsb = (frfOf s.cfg f).extractLsb' 16 8 ∧
      t.devReg s.cfg.aFrfMid = (frfOf s.cfg f).extractLsb' 8 8 ∧
      t.devReg s.cfg.aFrfLsb = (frfOf s.cfg f).extractLsb' 0 8 := by
  have hs₁ := h.bodyStart (.setfreq f)
  have e₁ := exec_of_body_cont (i := .setfreq f) rfl hs₁ (setfreqBody_msb hs₁ hwf f)
  have hs₂ := hs₁.afterWrite s.cfg.aFrfMsb ((frfOf s.cfg f).extractLsb' 16 8) ⟨.cW2, .none⟩
  have e₂ := exec_of_body_cont (i := .setfreq f) rfl hs₂ (setfreqBody_mid hs₂ hwf f)
  have hs₃ := hs₂.afterWrite s.cfg.aFrfMid ((frfOf s.cfg f).extractLsb' 8 8) ⟨.cW3, .none⟩
  have e₃ := exec_of_body_done (i := .setfreq f) rfl hs₃ (setfreqBody_lsb hs₃ hwf f)
  exact ⟨_, h.endsOk rfl rfl ((execTimes_step e₁ 2).trans ((execTimes_step e₂ 1).trans (execTimes_step e₃ 0))),
    (State.devReg_afterWrite_other _ _ (Config.named_ne hwf 4 2 (by decide))).trans
      ((State.devReg_afterWrite_other _ _ (Config.named_ne hwf 3 2 (by decide))).trans
        (State.devReg_afterWrite_same _ _ _)),
    (State.devReg_afterWrite_other _ _ (Config.named_ne hwf 4 3 (by decide))).trans
      (State.devReg_afterWrite_same _ _ _), State.devReg_afterWrite_same _ _ _⟩

end

/-! ## The getters, from acceptance to their end -/

/-- A command whose body reads one field (41_modem_configurator.md R162 to R165). -/
structure FieldGetter (c : Config) (i : Instr) (a : Addr) (pos n : Nat) : Prop where
  envelope : usesEnvelope i = true
  check : argCheck c i = none
  start : startSeq i = ⟨.gR1, .none⟩
  body : (envelopeOf c i).body = getBody a fun b => (b.extractLsb' pos n).setWidth 32

theorem getsf_fieldGetter (c : Config) : FieldGetter c .getsf c.aModemConfig2 4 4 := ⟨rfl, rfl, rfl, rfl⟩

theorem getbw_fieldGetter (c : Config) : FieldGetter c .getbw c.aModemConfig1 4 4 := ⟨rfl, rfl, rfl, rfl⟩

theorem getcr_fieldGetter (c : Config) : FieldGetter c .getcr c.aModemConfig1 1 3 := ⟨rfl, rfl, rfl, rfl⟩

theorem getcrc_fieldGetter (c : Config) : FieldGetter c .getcrc c.aModemConfig2 2 1 := ⟨rfl, rfl, rfl, rfl⟩

section
variable {s : State} (h : HostFresh s)
include h

theorem FieldGetter.endsOk {i : Instr} {a : Addr} {pos n : Nat} (hi : FieldGetter s.cfg i a pos n)
    (hr : readsStored s a) : ∃ t, EndsOk i 3 s t ∧ t.host.res = ((s.devReg a).extractLsb' pos n).setWidth 32 := by
  have hs₁ := h.bodyStart i
  rw [hi.start] at hs₁
  have e₁ := exec_of_body_done hi.envelope hs₁ ((congrFun hi.body _).trans (getBody_read hs₁ hr))
  exact ⟨_, h.endsOk hi.envelope hi.check (execTimes_step e₁ 0), rfl⟩

variable (hwf : s.cfg.wf = true)
include hwf

theorem getpre_endsOk :
    ∃ t, EndsOk .getpre 4 s t ∧
      t.host.res = (s.devReg s.cfg.aPreambleMsb ++ s.devReg s.cfg.aPreambleLsb).setWidth 32 := by
  have hs₁ := h.bodyStart .getpre
  have e₁ := exec_of_body_cont (i := .getpre) rfl hs₁ (getpreBody_msb hs₁ hwf)
  have hs₂ := hs₁.afterRead s.cfg.aPreambleMsb ⟨.gR2, .none⟩ { s.pe with getHi := s.devReg s.cfg.aPreambleMsb }
  have e₂ := exec_of_body_done (i := .getpre) rfl hs₂ (getpreBody_lsb hs₂ hwf)
  exact ⟨_, h.endsOk rfl rfl ((execTimes_step e₁ 1).trans (execTimes_step e₂ 0)), rfl⟩

theorem getfreq_endsOk :
    ∃ t, EndsOk .getfreq 5 s t ∧
      t.host.res = freqOfBytes s.cfg (s.devReg s.cfg.aFrfMsb) (s.devReg s.cfg.aFrfMid) (s.devReg s.cfg.aFrfLsb) := by
  have hs₁ := h.bodyStart .getfreq
  have e₁ := exec_of_body_cont (i := .getfreq) rfl hs₁ (getfreqBody_msb hs₁ hwf)
  have hs₂ := hs₁.afterRead s.cfg.aFrfMsb ⟨.gR2, .none⟩ { s.pe with getHi := s.devReg s.cfg.aFrfMsb }
  have e₂ := exec_of_body_cont (i := .getfreq) rfl hs₂ (getfreqBody_mid hs₂ hwf)
  have hs₃ := hs₂.afterRead s.cfg.aFrfMid ⟨.gR3, .none⟩
    { s.pe with getHi := s.devReg s.cfg.aFrfMsb, getMid := s.devReg s.cfg.aFrfMid }
  have e₃ := exec_of_body_done (i := .getfreq) rfl hs₃ (getfreqBody_lsb hs₃ hwf)
  exact ⟨_, h.endsOk rfl rfl ((execTimes_step e₁ 2).trans ((execTimes_step e₂ 1).trans (execTimes_step e₃ 0))), rfl⟩

end

/-! ## The matched pair of the power registers (41_modem_configurator.md R161) -/

/-- The configuration byte of a setting of 2 to 17 is none but 0x80 to 0x8F. -/
theorem paConfigByte_ne_max {c : Config} (hwf : c.wf = true) (d : Byte) (hp : powerSetting c d ≠ c.pwrMaxDbm) :
    paConfigByte c (powerSetting c d) ≠ c.paCfgMax := by
  have hlow : 2 ≤ (powerSetting c d).toInt ∧ (powerSetting c d).toInt ≤ 17 := by
    rw [powerSetting_toInt]
    refine (nearestPower_valid _ _).resolve_right fun e => hp (BitVec.eq_of_toInt_eq ?_)
    rw [powerSetting_toInt, e]
  rw [paConfigByte, if_neg hp, (Config.paMax_of_wf hwf).1]
  generalize powerSetting c d = p at hlow
  revert p
  decide

/-- Settles O22: at the maximum both bytes are the maximum's, at a lower setting neither is. -/
theorem powerPairMatched : Obligations.PowerPairMatched := by
  unfold Obligations.PowerPairMatched
  intro s d hwf hs hne
  obtain ⟨t, ht, hconfig, hdac⟩ := setpwr_endsOk hs hwf d
  refine ⟨t, ht.run, ht.status, ?_⟩
  rw [hconfig, hdac]
  by_cases hp : powerSetting s.cfg d = s.cfg.pwrMaxDbm
  · simp [paConfigByte, paDacByte, hp]
  · simp [paDacByte, hp, hne, paConfigByte_ne_max hwf d hp]

/-! ## A setter, then its getter -/

/-- A field read back is the value inserted, where the mask covers the field and the value fits it. -/
theorem insertField_readBack (old : Byte) {mask : Byte} {pos n : Nat} {val : Byte}
    (hm : ∀ j < n, mask.getLsbD (pos + j) = true) (hv : val.toNat < 2 ^ n) :
    ((insertField old mask pos val).extractLsb' pos n).setWidth 32 = val.setWidth 32 := by
  have hfield : (insertField old mask pos val).extractLsb' pos n = val.setWidth n := by
    apply BitVec.eq_of_getLsbD_eq
    intro j hj
    have hlt : pos + j < 8 := BitVec.lt_of_getLsbD (hm j hj)
    have hbit : mask[pos + j] = true := hm j hj
    have hj8 : j < 8 := by omega
    simp [insertField, hj, hlt, hbit, hj8]
  apply BitVec.eq_of_toNat_eq
  rw [hfield, BitVec.toNat_setWidth, BitVec.toNat_setWidth, BitVec.toNat_setWidth, Nat.mod_eq_of_lt hv]

/-- The three bytes of a 24-bit value, put together again. -/
theorem append_bytes_24 (x : BitVec 24) : x.extractLsb' 16 8 ++ x.extractLsb' 8 8 ++ x.extractLsb' 0 8 = x := by
  have hhigh : x.extractLsb' 16 8 ++ x.extractLsb' 8 8 = x.extractLsb' 8 16 :=
    BitVec.extractLsb'_append_extractLsb'_eq_extractLsb' rfl
  rw [hhigh]
  exact BitVec.extractLsb'_append_extractLsb' (w := 16) (len := 8)

/-- The three bytes SETFREQ writes stand for the register value it computed (R158, R167). -/
theorem freqOfBytes_frfOf (c : Config) (f : Word32) :
    freqOfBytes c ((frfOf c f).extractLsb' 16 8) ((frfOf c f).extractLsb' 8 8) ((frfOf c f).extractLsb' 0 8) =
      BitVec.ofNat 32 (freqOf (frf f.toNat c.oscHz) c.oscHz) := by
  rw [freqOfBytes, append_bytes_24, frfOf, BitVec.toNat_ofNat, Nat.mod_eq_of_lt (frf_lt _ _)]

theorem EndsOk.wf {i : Instr} {n : Nat} {s t : State} (h : EndsOk i n s t) (hwf : s.cfg.wf = true) : t.cfg.wf = true :=
  h.cfg ▸ hwf

/-- A command run alone for `m` steps ends OK, and another run from there for `n` steps ends OK with a result. -/
def GetsBack (s : State) (set : Instr) (m : Nat) (get : Instr) (n : Nat) (r : Word32) : Prop :=
  ∃ t u, execTimes m set s = .next t ∧ t.host.status = 0 ∧ execTimes n get t = .next u ∧ u.host.status = 0 ∧
    u.host.res = r

theorem EndsOk.getsBack {set get : Instr} {m n : Nat} {s t : State} {r r' : Word32} (ht : EndsOk set m s t)
    (hget : ∃ u, EndsOk get n t u ∧ u.host.res = r') (hr : r' = r) : GetsBack s set m get n r := by
  obtain ⟨u, hu, hres⟩ := hget
  exact ⟨t, u, ht.run, ht.status, hu.run, hu.status, hres.trans hr⟩

/-- A field setter, then the getter of its field. -/
theorem FieldSetter.thenGet {set get : Instr} {s : State} {a : Addr} {mask : Byte} {pos n : Nat} {val : Byte}
    (hset : FieldSetter s.cfg set a mask pos val) (hget : FieldGetter s.cfg get a pos n) (hs : HostFresh s)
    (hr : readsStored s a) (hp : plainAddr s.cfg a) (hm : ∀ j < n, mask.getLsbD (pos + j) = true)
    (hv : val.toNat < 2 ^ n) : GetsBack s set 4 get 3 (val.setWidth 32) := by
  obtain ⟨t, ht, hreg⟩ := hset.endsOk hs hr hp
  have hrt : readsStored t a := by
    rw [readsStored, PlainReads, ht.cfg]
    exact hr
  refine ht.getsBack (FieldGetter.endsOk ht.fresh (ht.cfg ▸ hget) hrt) ?_
  rw [hreg]
  exact insertField_readBack _ hm hv

/-- Settles O24, setter by setter: what it leaves in the registers is what its getter puts together. -/
theorem setterThenGetter : Obligations.SetterThenGetter := by
  unfold Obligations.SetterThenGetter
  intro s v en p f hwf hs set get m n r hmem
  simp only [List.mem_cons, Prod.mk.injEq, List.not_mem_nil, or_false] at hmem
  obtain ⟨rfl, rfl, rfl, rfl, rfl⟩ | ⟨rfl, rfl, rfl, rfl, rfl⟩ | ⟨rfl, rfl, rfl, rfl, rfl⟩ | ⟨rfl, rfl, rfl, rfl, rfl⟩ |
    ⟨rfl, rfl, rfl, rfl, rfl⟩ | ⟨rfl, rfl, rfl, rfl, rfl⟩ := hmem
  · exact (setsf_fieldSetter s.cfg v).thenGet (getsf_fieldGetter s.cfg) hs (reads_aModemConfig2 hwf)
      (Config.plain_aModemConfig2 hwf) (by decide) (by rw [clampSf_toNat]; omega)
  · exact (setbw_fieldSetter s.cfg v).thenGet (getbw_fieldGetter s.cfg) hs (reads_aModemConfig1 hwf)
      (Config.plain_aModemConfig1 hwf) (by decide) (by rw [clampBw_toNat]; omega)
  · exact (setcr_fieldSetter s.cfg v).thenGet (getcr_fieldGetter s.cfg) hs (reads_aModemConfig1 hwf)
      (Config.plain_aModemConfig1 hwf) (by decide) (by rw [clampCr_toNat]; omega)
  · rw [← BitVec.setWidth_setWidth (x := en) (v := 8) (by decide)]
    exact (setcrc_fieldSetter s.cfg en).thenGet (getcrc_fieldGetter s.cfg) hs (reads_aModemConfig2 hwf)
      (Config.plain_aModemConfig2 hwf) (by decide) (by rw [BitVec.toNat_setWidth]; omega)
  · obtain ⟨t, ht, hmsb, hlsb⟩ := setpre_endsOk hs hwf p
    refine ht.getsBack (getpre_endsOk ht.fresh (ht.wf hwf)) ?_
    rw [ht.cfg, hmsb, hlsb, BitVec.extractLsb'_append_extractLsb' (w := 8) (len := 8)]
  · obtain ⟨t, ht, hmsb, hmid, hlsb⟩ := setfreq_endsOk hs hwf f
    refine ht.getsBack (getfreq_endsOk ht.fresh (ht.wf hwf)) ?_
    rw [ht.cfg, hmsb, hmid, hlsb, freqOfBytes_frfOf]

end Sys2Proof.Machine
end


section
namespace Sys2Proof.Machine

/-! The verified mode transition on a healthy bus, in every command that makes one, and the mode commands. -/

/-! ## Micro-steps on the way -/

/-- A micro-step of a command leads to another one, with the lock held and the bus still healthy. -/
structure StepsTo (i : Instr) (s t : State) (q : Seq) : Prop where
  run : exec i s = .next t
  hostAt : HostAt t q

section
variable {i : Instr} {s t : State} {q : Seq}

/-- A body that goes on and leaves the lock, the envelope and the bus as they were. -/
theorem HostAt.stepsTo {q' : Seq} (hs : HostAt s q) (hi : usesEnvelope i = true)
    (hb : (envelopeOf s.cfg i).body s = .cont t) (hseq : t.seq = q' := by rfl) (hpos : t.host.pos = s.host.pos := by rfl)
    (ho : t.lockOwner = s.lockOwner := by rfl) (hf : t.busFault = s.busFault := by rfl)
    (hx : t.busFails = s.busFails := by rfl) : StepsTo i s t q' :=
  ⟨exec_of_body_cont hi hs hb, hpos.trans hs.pos, hseq, ho.trans hs.owner, hf.trans hs.busFault, hx.trans hs.busFails⟩

theorem exec_of_body_raise {e : Err} (hi : usesEnvelope i = true) (hs : HostAt s q)
    (hb : (envelopeOf s.cfg i).body s = .raise e t) :
    exec i s = .next ((envelopeOf s.cfg i).onErr e (t.endedErr e)) :=
  (exec_at_e3 hi hs.pos).trans (congrArg _ hb)

end

/-! ## The operating-mode byte -/

/-- Bits 7:3 kept and the mode replaced, as the rules write it (42_mode_controller.md R191). -/
theorem withMode_eq (b : Byte) (m : ModeCode) : withMode b m = (b &&& 0xF8) ||| m.setWidth 8 := rfl

theorem getLsbD_0xF8 : ∀ j < 8, (0xF8 : Byte).getLsbD j = decide (3 ≤ j) := by decide

theorem getLsbD_withMode (b : Byte) (m : ModeCode) {j : Nat} (hj : j < 8) :
    (withMode b m).getLsbD j = if j < 3 then m.getLsbD j else b.getLsbD j := by
  rw [withMode_eq, BitVec.getLsbD_or, BitVec.getLsbD_and, getLsbD_0xF8 j hj, BitVec.getLsbD_setWidth]
  by_cases h : j < 3
  · simp [h, hj, show ¬ 3 ≤ j by omega]
  · simp [h, BitVec.getLsbD_of_ge, show 3 ≤ j by omega]

@[simp] theorem modeField_withMode (b : Byte) (m : ModeCode) : modeField (withMode b m) = m := by
  apply BitVec.eq_of_getLsbD_eq
  intro j hj
  rw [modeField, BitVec.getLsbD_extractLsb', Nat.zero_add, getLsbD_withMode b m (by omega)]
  simp [hj]

/-- The fields above the mode field are kept (R191). -/
theorem withMode_shiftRight (b : Byte) (m : ModeCode) : withMode b m >>> 3 = b >>> 3 := by
  apply BitVec.eq_of_getLsbD_eq
  intro j hj
  simp only [BitVec.getLsbD_ushiftRight]
  by_cases h : 3 + j < 8
  · rw [getLsbD_withMode b m h, if_neg (by omega)]
  · rw [BitVec.getLsbD_of_ge _ _ (by omega), BitVec.getLsbD_of_ge _ _ (by omega)]

/-! ## The micro-steps of set_mode (42_mode_controller.md R191, R194) -/

theorem HostAt.main_sub {s : State} {m : Main} {b : Sub} (hs : HostAt s ⟨m, b⟩) : m = s.seq.main ∧ s.seq.sub = b := by
  rw [hs.seq]
  exact ⟨rfl, rfl⟩

section
variable {s : State} {m : Main} {target : ModeCode} {retry : Bool} {k : State → Micro}

theorem setModeStep_read (hs : HostAt s ⟨m, .mRd⟩) (hwf : s.cfg.wf = true) :
    setModeStep target retry s k = .cont { s.afterRead s.cfg.aOpmode with
      seq := ⟨m, .mWr⟩
      pe := { s.pe with
        attempt := if retry then s.pe.attempt + 1 else s.pe.attempt, modeByte := s.devReg s.cfg.aOpmode } } := by
  obtain ⟨rfl, hb⟩ := hs.main_sub
  simp only [setModeStep, hb]
  refine (readReg_stored ?_ ?_ _).trans rfl
  · exact hs.ready.registers _ _
  · exact reads_aOpmode hwf

theorem setModeStep_write (hs : HostAt s ⟨m, .mWr⟩) (hwf : s.cfg.wf = true) :
    setModeStep target retry s k =
      .cont { s.afterWrite s.cfg.aOpmode (withMode s.pe.modeByte target) with seq := ⟨m, .mVf⟩ } := by
  obtain ⟨rfl, hb⟩ := hs.main_sub
  simp only [setModeStep, hb]
  exact writeReg_plain hs.ready (Config.plain_aOpmode hwf) _ _

theorem setModeStep_verified (hs : HostAt s ⟨m, .mVf⟩) (hwf : s.cfg.wf = true) (hd : s.devMode = target) :
    setModeStep target retry s k = k (({ s with modeShadow := target } : State).afterRead s.cfg.aOpmode) := by
  obtain ⟨-, hb⟩ := hs.main_sub
  simp only [setModeStep, hb]
  exact (readReg_stored hs.ready (reads_aOpmode hwf) _).trans (if_pos hd)

theorem setModeStep_retries (hs : HostAt s ⟨m, .mVf⟩) (hwf : s.cfg.wf = true) (hd : s.devMode ≠ target)
    (ha : s.pe.attempt.toNat < s.cfg.modeAttempts.toNat) :
    setModeStep target true s k =
      .cont (({ s with modeShadow := s.devMode, seq := ⟨m, .mRd⟩ } : State).afterRead s.cfg.aOpmode) := by
  obtain ⟨rfl, hb⟩ := hs.main_sub
  simp only [setModeStep, hb]
  exact (readReg_stored hs.ready (reads_aOpmode hwf) _).trans ((if_neg hd).trans (if_pos ⟨trivial, ha⟩))

theorem setModeStep_fails (hs : HostAt s ⟨m, .mVf⟩) (hwf : s.cfg.wf = true) (hd : s.devMode ≠ target)
    (ha : retry = true → s.cfg.modeAttempts.toNat ≤ s.pe.attempt.toNat) :
    setModeStep target retry s k =
      .raise (.modeVerificationFailed (s.devReg s.cfg.aOpmode))
        { s.afterRead s.cfg.aOpmode with modeShadow := s.devMode } := by
  obtain ⟨-, hb⟩ := hs.main_sub
  simp only [setModeStep, hb]
  exact (readReg_stored hs.ready (reads_aOpmode hwf) _).trans
    ((if_neg hd).trans (if_neg fun hr => Nat.not_lt.2 (ha hr.1) hr.2))

end

/-! ## The commands that make a verified mode transition -/

theorem Txn.andThen_onDone (x : Txn) (k : List Byte → State → Micro) (g : Word32 → State → Micro) :
    (x.andThen k).onDone g = x.andThen fun bs t => (k bs t).onDone g := by
  cases x <;> rfl

/-- What the caller does when the procedure returns follows what the procedure does after the transition. -/
theorem setModeStep_onDone (target : ModeCode) (retry : Bool) (s : State) (k : State → Micro)
    (g : Word32 → State → Micro) :
    (setModeStep target retry s k).onDone g = setModeStep target retry s fun t => (k t).onDone g := by
  unfold setModeStep
  split
  · exact Txn.andThen_onDone _ _ _
  · exact Txn.andThen_onDone _ _ _
  · refine (Txn.andThen_onDone _ _ _).trans (congrArg _ (funext fun bs => funext fun t => ?_))
    dsimp only
    split
    · rfl
    · split <;> rfl
  · rfl

/-- At main step `m` the body of command `i` is set_mode to `target`, with the attempts counted if `retry` is set, and `k`
follows success. -/
structure ModeTransition (i : Instr) (m : Main) (target : ModeCode) (retry : Bool) (k : State → Micro) : Prop where
  envelope : usesEnvelope i = true
  body : ∀ (s : State) (b : Sub), s.seq = ⟨m, b⟩ → b ≠ .none →
    (envelopeOf s.cfg i).body s = setModeStep target retry s k

theorem setmode_transition (m : ModeCode) :
    ModeTransition (.setmode m) .mCmd m false fun t => .done (m.setWidth 32) t :=
  ⟨rfl, fun s b hq _ => by simp only [envelopeOf, envelopeAt, setmodeBody, hq]⟩

theorem init_transition : ModeTransition .init .iStby modeStdby true fun t => .done 0 t :=
  ⟨rfl, fun s b hq _ => by simp only [envelopeOf, envelopeAt, initBody, hq]⟩

section
variable {m : Main} {target : ModeCode} {k : State → Micro}

theorem transmit_transition (len : BitVec 16)
    (h : ∀ (s : State) (b : Sub), s.seq = ⟨m, b⟩ → b ≠ .none → peTransmit s = setModeStep target true s k) :
    ModeTransition (.transmit len) m target true fun t => (k t).onDone fun _ u => .done (len.setWidth 32) u :=
  ⟨rfl, fun s b hq hb => by
    show (peTransmit s).onDone _ = _
    rw [h s b hq hb, setModeStep_onDone]⟩

theorem receive_transition
    (h : ∀ (s : State) (b : Sub), s.seq = ⟨m, b⟩ → b ≠ .none → peReceive s = setModeStep target true s k) :
    ModeTransition .receive m target true fun t =>
      (k t).onDone fun _ u => .done (u.pe.len.setWidth 32) (u.deliver u.payload u.pe.len) :=
  ⟨rfl, fun s b hq hb => by
    show (peReceive s).onDone _ = _
    rw [h s b hq hb, setModeStep_onDone]⟩

end

theorem transmit_toStandby (len : BitVec 16) :
    ModeTransition (.transmit len) .tEns modeStdby true fun t => .cont (t.goto .tBase) :=
  transmit_transition len (k := fun t => .cont (t.goto .tBase)) fun s b hq hb => by simp only [peTransmit, hq]

theorem transmit_toTransmit (len : BitVec 16) :
    ModeTransition (.transmit len) .tMode modeTx true fun t => .cont (t.armWait .tWait) :=
  transmit_transition len (k := fun t => .cont (t.armWait .tWait)) fun s b hq _ => by simp only [peTransmit, hq]

theorem transmit_backToStandby (len : BitVec 16) :
    ModeTransition (.transmit len) .tStby modeStdby true fun t => .done (len.setWidth 32) t :=
  transmit_transition len (k := fun t => .done 0 t) fun s b hq _ => by simp only [peTransmit, hq]

theorem receive_toStandby : ModeTransition .receive .rEns modeStdby true fun t => .cont (t.goto .rMode) :=
  receive_transition (k := fun t => .cont (t.goto .rMode)) fun s b hq hb => by simp only [peReceive, hq]

theorem receive_toReceive : ModeTransition .receive .rMode modeRxCont true fun t => .cont (t.armWait .rWait) :=
  receive_transition (k := fun t => .cont (t.armWait .rWait)) fun s b hq hb => by simp only [peReceive, hq]

theorem receive_backToStandby :
    ModeTransition .receive .rStby modeStdby true fun t =>
      (if t.crcBad then .raise .payloadCrcError t else .done 0 t : Micro).onDone fun _ u =>
        .done (u.pe.len.setWidth 32) (u.deliver u.payload u.pe.len) :=
  receive_transition fun s b hq _ => by simp only [peReceive, hq]

/-! ## A transition inside its command -/

/-- What `res` records of a mode mismatch: the byte read back, for RECEIVE as the switch chooses (60_exceptions.md R272,
43_packet_engine.md R215, log entry 7). -/
def mismatchRes (c : Config) (i : Instr) (r : Byte) : Word32 :=
  match i with
  | .receive => if c.receiveErrorsClearRes then 0 else r.setWidth 32
  | _ => r.setWidth 32

/-- A command has ended with ModeVerificationFailed after reading the operating mode. -/
structure MismatchEnds (i : Instr) (s t : State) : Prop where
  run : exec i s = .next t
  ended : EndedByError t 2 (mismatchRes s.cfg i (s.devReg s.cfg.aOpmode))
  modeShadow : t.modeShadow = s.devMode
  sameDevice : sameDevice s t
  trace : t.trace = s.trace ++ [s.okRec .rd s.cfg.aOpmode [s.devReg s.cfg.aOpmode]]

/-- The body raises ModeVerificationFailed with the byte it read. -/
theorem HostAt.mismatchEnds {i : Instr} {s : State} {q : Seq} (hs : HostAt s q) (hi : usesEnvelope i = true)
    (hb : (envelopeOf s.cfg i).body s =
      .raise (.modeVerificationFailed (s.devReg s.cfg.aOpmode))
        { s.afterRead s.cfg.aOpmode with modeShadow := s.devMode }) : ∃ t, MismatchEnds i s t := by
  have hrun := exec_of_body_raise hi hs hb
  cases i with
  | ismode | schstart | busRd | busWr => cases hi
  | _ => exact ⟨_, hrun, ⟨rfl, rfl, rfl, rfl, rfl, rfl⟩, rfl, ⟨fun _ => rfl, fun _ => rfl⟩, rfl⟩

section
variable {i : Instr} {m : Main} {target : ModeCode} {retry : Bool} {k : State → Micro}
  (h : ModeTransition i m target retry k) {s : State}
include h

theorem ModeTransition.body_at {b : Sub} (hs : HostAt s ⟨m, b⟩) (hb : b ≠ .none) :
    (envelopeOf s.cfg i).body s = setModeStep target retry s k := h.body s b hs.seq hb

theorem ModeTransition.read (hs : HostAt s ⟨m, .mRd⟩) (hwf : s.cfg.wf = true) :
    StepsTo i s { s.afterRead s.cfg.aOpmode with
      seq := ⟨m, .mWr⟩
      pe := { s.pe with
        attempt := if retry then s.pe.attempt + 1 else s.pe.attempt, modeByte := s.devReg s.cfg.aOpmode } }
      ⟨m, .mWr⟩ :=
  hs.stepsTo h.envelope ((h.body_at hs (by decide)).trans (setModeStep_read hs hwf))

theorem ModeTransition.write (hs : HostAt s ⟨m, .mWr⟩) (hwf : s.cfg.wf = true) :
    StepsTo i s { s.afterWrite s.cfg.aOpmode (withMode s.pe.modeByte target) with seq := ⟨m, .mVf⟩ } ⟨m, .mVf⟩ :=
  hs.stepsTo h.envelope ((h.body_at hs (by decide)).trans (setModeStep_write hs hwf))

/-- The read-back shows the target and the command returns OK. -/
theorem ModeTransition.returns (hs : HostAt s ⟨m, .mVf⟩) (hwf : s.cfg.wf = true) (hd : s.devMode = target)
    {r : Word32} {t : State}
    (hk : k (({ s with modeShadow := target } : State).afterRead s.cfg.aOpmode) = .done r t) :
    exec i s = .next (t.endedOk r) :=
  exec_of_body_done h.envelope hs
    ((h.body_at hs (by decide)).trans ((setModeStep_verified hs hwf hd).trans hk))

theorem ModeTransition.fails (hs : HostAt s ⟨m, .mVf⟩) (hwf : s.cfg.wf = true) (hd : s.devMode ≠ target)
    (ha : retry = true → s.cfg.modeAttempts.toNat ≤ s.pe.attempt.toNat) : ∃ t, MismatchEnds i s t :=
  hs.mismatchEnds h.envelope ((h.body_at hs (by decide)).trans (setModeStep_fails hs hwf hd ha))

end

theorem ModeTransition.retries {i : Instr} {m : Main} {target : ModeCode} {k : State → Micro}
    (h : ModeTransition i m target true k) {s : State} (hs : HostAt s ⟨m, .mVf⟩)
    (hwf : s.cfg.wf = true) (hd : s.devMode ≠ target) (ha : s.pe.attempt.toNat < s.cfg.modeAttempts.toNat) :
    StepsTo i s (({ s with modeShadow := s.devMode, seq := ⟨m, .mRd⟩ } : State).afterRead s.cfg.aOpmode) ⟨m, .mRd⟩ :=
  hs.stepsTo h.envelope ((h.body_at hs (by decide)).trans (setModeStep_retries hs hwf hd ha))

/-- Settles O25: SETMODE's body is one transition with a single attempt. -/
theorem setmodeVerifiesTheWrite : Obligations.SetmodeVerifiesTheWrite := by
  unfold Obligations.SetmodeVerifiesTheWrite
  exact fun s m hwf =>
    ⟨fun hs => ((setmode_transition m).read hs hwf).run, fun hs => ((setmode_transition m).write hs hwf).run,
      fun hs hd => (setmode_transition m).returns hs hwf hd rfl⟩

/-- Settles O30: at every retried transition, with what each command makes of the last mismatch. -/
theorem modeRetryIsBounded : Obligations.ModeRetryIsBounded := by
  unfold Obligations.ModeRetryIsBounded
  rintro s len i m target res info rfl hmem hwf hs hd
  obtain ⟨k, hk, rfl⟩ : ∃ k, ModeTransition i m target true k ∧ res = mismatchRes s.cfg i (s.devReg s.cfg.aOpmode) := by
    simp only [List.mem_cons, Prod.mk.injEq, List.not_mem_nil, or_false] at hmem
    obtain ⟨rfl, rfl, rfl, rfl⟩ | ⟨rfl, rfl, rfl, rfl⟩ | ⟨rfl, rfl, rfl, rfl⟩ | ⟨rfl, rfl, rfl, rfl⟩ |
      ⟨rfl, rfl, rfl, rfl⟩ | ⟨rfl, rfl, rfl, rfl⟩ | ⟨rfl, rfl, rfl, rfl⟩ := hmem
    · exact ⟨_, init_transition, rfl⟩
    · exact ⟨_, transmit_toStandby len, rfl⟩
    · exact ⟨_, transmit_toTransmit len, rfl⟩
    · exact ⟨_, transmit_backToStandby len, rfl⟩
    · exact ⟨_, receive_toStandby, rfl⟩
    · exact ⟨_, receive_toReceive, rfl⟩
    · exact ⟨_, receive_backToStandby, rfl⟩
  refine ⟨fun ha => (hk.retries hs hwf hd ha).run, fun ha => ?_⟩
  obtain ⟨t, ht⟩ := hk.fails hs hwf hd fun _ => ha
  exact ⟨t, ht.run, ht.ended, ht.modeShadow, ht.sameDevice⟩

/-- Settles O31: the last transition of each command succeeds and the command returns. -/
theorem commandsEndInStandby : Obligations.CommandsEndInStandby := by
  unfold Obligations.CommandsEndInStandby
  refine fun s len hwf hd => ⟨fun hs => init_transition.returns hs hwf hd rfl,
    fun hs => (transmit_backToStandby len).returns hs hwf hd rfl, fun hs hcrc => ?_⟩
  have hgood : ¬ s.crcBad = true := by
    rw [State.crcBad, show s.pe.flags &&& flagCrcErr = 0 from hcrc]
    decide
  exact receive_backToStandby.returns hs hwf hd (congrArg (Micro.onDone · _) (if_neg hgood))

/-- Settles O28: ISMODE is one update of the result port. -/
theorem ismodeAnswersFromShadow : Obligations.IsmodeAnswersFromShadow := by
  unfold Obligations.IsmodeAnswersFromShadow
  exact fun _ _ => rfl

/-! ## INIT (42_mode_controller.md R195) -/

section
variable {s : State}

theorem initBody_pulse (hs : HostAt s ⟨.iRst, .none⟩) : initBody s = .cont (s.initPulse.goto .iOpw) := by
  simp only [initBody, hs.seq]

theorem initBody_writeMode (hs : HostAt s ⟨.iOpw, .none⟩) (hwf : s.cfg.wf = true) :
    initBody s = .cont { s.afterWrite s.cfg.aOpmode (opmodeInit s.cfg) with
      seq := ⟨.iOpv, .none⟩, modeShadow := modeSleep } := by
  simp only [initBody, hs.seq, writeReg_plain hs.ready (Config.plain_aOpmode hwf)]
  rfl

theorem initBody_check (hs : HostAt s ⟨.iOpv, .none⟩) (hwf : s.cfg.wf = true) :
    initBody s =
      if s.devReg s.cfg.aOpmode &&& opmodeInitMask = opmodeInit s.cfg then
        .cont { s.afterRead s.cfg.aOpmode with seq := ⟨.iTxb, .none⟩ }
      else
        .raise (.modeVerificationFailed (s.devReg s.cfg.aOpmode))
          { s.afterRead s.cfg.aOpmode with modeShadow := s.devMode } := by
  simp only [initBody, hs.seq, readReg_stored hs.ready (reads_aOpmode hwf)]
  rfl

theorem initBody_writeTxBase (hs : HostAt s ⟨.iTxb, .none⟩) (hwf : s.cfg.wf = true) :
    initBody s = .cont { s.afterWrite s.cfg.aFifoTxBase s.cfg.txBaseInit with seq := ⟨.iRxb, .none⟩ } := by
  simp only [initBody, hs.seq, writeReg_plain hs.ready (Config.plain_aFifoTxBase hwf)]
  rfl

theorem initBody_writeRxBase (hs : HostAt s ⟨.iRxb, .none⟩) (hwf : s.cfg.wf = true) :
    initBody s = .cont { s.afterWrite s.cfg.aFifoRxBase s.cfg.rxBaseInit with
      seq := ⟨.iStby, .mRd⟩, pe := { s.pe with attempt := 0 } } := by
  simp only [initBody, hs.seq, writeReg_plain hs.ready (Config.plain_aFifoRxBase hwf)]
  rfl

end

/-- Settles O26: SETMODE makes one attempt, and INIT's check does not try again. -/
theorem readBackMismatchFails : Obligations.ReadBackMismatchFails := by
  unfold Obligations.ReadBackMismatchFails
  refine fun s m hwf => ⟨fun hs hd => ?_, fun hs hd => ?_⟩
  · obtain ⟨t, ht⟩ := (setmode_transition m).fails hs hwf hd nofun
    exact ⟨t, ht.run, ht.ended, ht.modeShadow, ht.sameDevice, ht.trace⟩
  · obtain ⟨t, ht⟩ := hs.mismatchEnds (i := .init) rfl ((initBody_check hs hwf).trans (if_neg hd))
    exact ⟨t, ht.run, ht.ended, ht.modeShadow, ht.sameDevice, ht.trace⟩

end Sys2Proof.Machine
end

section
namespace Sys2Proof.Machine

/-! SETMODE and INIT run alone: the transactions of a stretch of micro-steps, and what they leave in the registers. -/

/-! ## Stretches of single transactions -/

/-- A completed single transaction at a register that is plain storage: the byte read, or the byte written. -/
inductive PlainTxn where
  | rd (a : Addr) (v : Byte)
  | wr (a : Addr) (v : Byte)

/-- Its kind, address and bytes, as the log has them (10_state.md R53). -/
def PlainTxn.entry : PlainTxn → BusKind × Addr × List Byte
  | .rd a v => (.rd, a, [v])
  | .wr a v => (.wr, a, [v])

/-- What register `a` holds after it, if it held `b` before (20_memory.md R66). -/
def PlainTxn.store (a : Addr) (b : Byte) : PlainTxn → Byte
  | .rd _ _ => b
  | .wr c v => if c = a then v else b

/-- Command `i`, run alone for `n` micro-steps from `s`, stands at `q` with the transactions `l` made, and has left the
result port, the modem tuple, the interrupt latch and the reset line as they were. -/
structure RunsAlone (i : Instr) (n : Nat) (s t : State) (q : Seq) (l : List PlainTxn) : Prop where
  run : ∀ k, execTimes (k + n) i s = execTimes k i t
  hostAt : HostAt t q
  cfg : t.cfg = s.cfg
  host : t.host = s.host
  x : t.x = s.x
  irqLatch : t.irqLatch = s.irqLatch
  irqPrev : t.irqPrev = s.irqPrev
  devRst : t.devRst = s.devRst
  devReg : ∀ a, t.devReg a = l.foldl (PlainTxn.store a) (s.devReg a)
  trace : ∃ r, t.trace = s.trace ++ r ∧ r.map (fun r => (r.kind, r.addr, r.data)) = l.map PlainTxn.entry

theorem RunsAlone.wf {i : Instr} {n : Nat} {s t : State} {q : Seq} {l : List PlainTxn} (h : RunsAlone i n s t q l)
    (hwf : s.cfg.wf = true) : t.cfg.wf = true := h.cfg ▸ hwf

theorem RunsAlone.trans {i : Instr} {m n : Nat} {s t u : State} {q q' : Seq} {l l' : List PlainTxn}
    (h : RunsAlone i m s t q l) (g : RunsAlone i n t u q' l') : RunsAlone i (n + m) s u q' (l ++ l') where
  run := fun k => by rw [← Nat.add_assoc, h.run, g.run]
  hostAt := g.hostAt
  cfg := g.cfg.trans h.cfg
  host := g.host.trans h.host
  x := g.x.trans h.x
  irqLatch := g.irqLatch.trans h.irqLatch
  irqPrev := g.irqPrev.trans h.irqPrev
  devRst := g.devRst.trans h.devRst
  devReg := fun a => by rw [g.devReg, h.devReg, List.foldl_append]
  trace := by
    obtain ⟨r, hr, hrl⟩ := h.trace
    obtain ⟨r', hr', hrl'⟩ := g.trace
    exact ⟨r ++ r', by rw [hr', hr, List.append_assoc], by rw [List.map_append, List.map_append, hrl, hrl']⟩

section
variable {i : Instr} {s t : State} {q : Seq} {a : Addr} {v : Byte} (h : StepsTo i s t q)
include h

/-- A micro-step that is one read. -/
theorem StepsTo.runsRead (hv : s.devReg a = v)
    (ht : ∃ q p m, t = { s.afterRead a with seq := q, pe := p, modeShadow := m } := by exact ⟨_, _, _, rfl⟩) :
    RunsAlone i 1 s t q [.rd a v] := by
  obtain ⟨_, _, _, rfl⟩ := ht
  exact ⟨execTimes_step h.run, h.hostAt, rfl, rfl, rfl, rfl, rfl, rfl, fun _ => rfl, _, rfl, by rw [hv]; rfl⟩

/-- A micro-step that is one write. -/
theorem StepsTo.runsWrite
    (ht : ∃ q p m, t = { s.afterWrite a v with seq := q, pe := p, modeShadow := m } := by exact ⟨_, _, _, rfl⟩) :
    RunsAlone i 1 s t q [.wr a v] := by
  obtain ⟨_, _, _, rfl⟩ := ht
  exact ⟨execTimes_step h.run, h.hostAt, rfl, rfl, rfl, rfl, rfl, rfl, s.devReg_afterWrite a v, _, rfl, rfl⟩

end

/-! ## A mode transition run alone -/

/-- The two micro-steps of a mode transition before its read-back. -/
theorem ModeTransition.runs {i : Instr} {m : Main} {target : ModeCode} {retry : Bool} {k : State → Micro}
    (h : ModeTransition i m target retry k) {s : State} (hs : HostAt s ⟨m, .mRd⟩) (hwf : s.cfg.wf = true) {v : Byte}
    (hv : s.devReg s.cfg.aOpmode = v) :
    ∃ t, RunsAlone i 2 s t ⟨m, .mVf⟩ [.rd s.cfg.aOpmode v, .wr s.cfg.aOpmode (withMode v target)] := by
  subst hv
  have h₁ := h.read hs hwf
  exact ⟨_, (h₁.runsRead rfl).trans (h.write h₁.hostAt hwf).runsWrite⟩

/-- Settles O27: SETMODE is one transition, after which the shadow and the device agree. -/
theorem setmodeThenIsmode : Obligations.SetmodeThenIsmode := by
  unfold Obligations.SetmodeThenIsmode
  intro s m k hwf hs
  obtain ⟨t, ht⟩ := (setmode_transition m).runs (hs.bodyStart (.setmode m)) hwf (v := s.devReg s.cfg.aOpmode) rfl
  have hcfg : t.cfg = s.cfg := ht.cfg
  have hreg : t.devReg s.cfg.aOpmode = withMode (s.devReg s.cfg.aOpmode) m := (ht.devReg _).trans (if_pos rfl)
  have hmode : t.devMode = m := by rw [State.devMode, hcfg, hreg, modeField_withMode]
  have hret := (setmode_transition m).returns ht.hostAt (ht.wf hwf) hmode rfl
  refine ⟨_, _, (execTimes_bodyStart rfl rfl hs 3).trans ((ht.run 1).trans (execTimes_step hret 0)), rfl, rfl, hmode, ?_,
    rfl, ismodeAnswersFromShadow _ k, rfl⟩
  exact (congrArg (fun b : Byte => b >>> 3) hreg).trans (withMode_shiftRight _ _)

/-! ## INIT run alone (42_mode_controller.md R195) -/

theorem opmodeInit_and_mask (c : Config) : opmodeInit c &&& opmodeInitMask = opmodeInit c := by
  unfold opmodeInit
  cases c.lowFreqMode <;> decide

/-- INIT writes Sleep, and Standby is the next mode code. -/
theorem withMode_opmodeInit (c : Config) : withMode (opmodeInit c) modeStdby = opmodeInit c + 1 := by
  unfold opmodeInit
  cases c.lowFreqMode <;> decide

section
variable {s : State}

theorem init_writeMode (hs : HostAt s ⟨.iOpw, .none⟩) (hwf : s.cfg.wf = true) :
    ∃ t, RunsAlone .init 1 s t ⟨.iOpv, .none⟩ [.wr s.cfg.aOpmode (opmodeInit s.cfg)] :=
  ⟨_, (hs.stepsTo (i := .init) (q' := ⟨.iOpv, .none⟩) rfl (initBody_writeMode hs hwf)).runsWrite⟩

theorem init_checkMode (hs : HostAt s ⟨.iOpv, .none⟩) (hwf : s.cfg.wf = true)
    (hv : s.devReg s.cfg.aOpmode = opmodeInit s.cfg) :
    ∃ t, RunsAlone .init 1 s t ⟨.iTxb, .none⟩ [.rd s.cfg.aOpmode (opmodeInit s.cfg)] :=
  have hb := (initBody_check hs hwf).trans
    (if_pos ((congrArg (· &&& opmodeInitMask) hv).trans (opmodeInit_and_mask s.cfg)))
  ⟨_, (hs.stepsTo (i := .init) (q' := ⟨.iTxb, .none⟩) rfl hb).runsRead hv⟩

theorem init_writeTxBase (hs : HostAt s ⟨.iTxb, .none⟩) (hwf : s.cfg.wf = true) :
    ∃ t, RunsAlone .init 1 s t ⟨.iRxb, .none⟩ [.wr s.cfg.aFifoTxBase s.cfg.txBaseInit] :=
  ⟨_, (hs.stepsTo (i := .init) (q' := ⟨.iRxb, .none⟩) rfl (initBody_writeTxBase hs hwf)).runsWrite⟩

theorem init_writeRxBase (hs : HostAt s ⟨.iRxb, .none⟩) (hwf : s.cfg.wf = true) :
    ∃ t, RunsAlone .init 1 s t ⟨.iStby, .mRd⟩ [.wr s.cfg.aFifoRxBase s.cfg.rxBaseInit] :=
  ⟨_, (hs.stepsTo (i := .init) (q' := ⟨.iStby, .mRd⟩) rfl (initBody_writeRxBase hs hwf)).runsWrite⟩

/-- From the pulse to the mode transition. -/
theorem init_configures (hs : HostAt s ⟨.iOpw, .none⟩) (hwf : s.cfg.wf = true) :
    ∃ t, RunsAlone .init 4 s t ⟨.iStby, .mRd⟩
      [.wr s.cfg.aOpmode (opmodeInit s.cfg), .rd s.cfg.aOpmode (opmodeInit s.cfg),
       .wr s.cfg.aFifoTxBase s.cfg.txBaseInit, .wr s.cfg.aFifoRxBase s.cfg.rxBaseInit] := by
  obtain ⟨s₁, h₁⟩ := init_writeMode hs hwf
  have hv : s₁.devReg s₁.cfg.aOpmode = opmodeInit s₁.cfg := by
    rw [h₁.cfg, h₁.devReg]
    exact if_pos rfl
  obtain ⟨s₂, h₂⟩ := init_checkMode h₁.hostAt (h₁.wf hwf) hv
  rw [h₁.cfg] at h₂
  have h₁₂ := h₁.trans h₂
  obtain ⟨s₃, h₃⟩ := init_writeTxBase h₁₂.hostAt (h₁₂.wf hwf)
  rw [h₁₂.cfg] at h₃
  have h₁₃ := h₁₂.trans h₃
  obtain ⟨s₄, h₄⟩ := init_writeRxBase h₁₃.hostAt (h₁₃.wf hwf)
  rw [h₁₃.cfg] at h₄
  exact ⟨s₄, h₁₃.trans h₄⟩

/-- INIT's first micro-step: the device reset pulse, which makes no transaction (60_exceptions.md R287). -/
structure InitPulses (s t : State) : Prop extends StepsTo .init s t ⟨.iOpw, .none⟩ where
  cfg : t.cfg = s.cfg
  host : t.host = s.host
  x : t.x = .unset
  irqLatch : t.irqLatch = false
  irqPrev : t.irqPrev = false
  devRst : t.devRst = false
  flags : t.flags = 0
  trace : t.trace = s.trace

theorem init_pulses (hs : HostAt s ⟨.iRst, .none⟩) : ∃ t, InitPulses s t := by
  have hflags : s.initPulse.flags = 0 := State.devReg_putReg_same _ _ _
  have hline : s.initPulse.irqPrev = false := by
    show (s.initPulse.flags &&& (flagTxDone ||| flagRxDone) != 0) = false
    rw [hflags]
    rfl
  have hrun : StepsTo .init s (s.initPulse.goto .iOpw) ⟨.iOpw, .none⟩ :=
    hs.stepsTo rfl (initBody_pulse hs) (by simp) (by simp) (by simp) (by simp) (by simp)
  exact ⟨_, hrun, by simp, by simp, by simp, by simp, by simpa using hline, by simp, hflags, by simp⟩

/-- From the pulse to the last read-back. -/
theorem init_runs (hs : HostAt s ⟨.iOpw, .none⟩) (hwf : s.cfg.wf = true) :
    ∃ t, RunsAlone .init 6 s t ⟨.iStby, .mVf⟩
      [.wr s.cfg.aOpmode (opmodeInit s.cfg), .rd s.cfg.aOpmode (opmodeInit s.cfg),
       .wr s.cfg.aFifoTxBase s.cfg.txBaseInit, .wr s.cfg.aFifoRxBase s.cfg.rxBaseInit,
       .rd s.cfg.aOpmode (opmodeInit s.cfg), .wr s.cfg.aOpmode (opmodeInit s.cfg + 1)] := by
  obtain ⟨t, ht⟩ := init_configures hs hwf
  have hreg : t.devReg t.cfg.aOpmode = opmodeInit s.cfg := by
    rw [ht.cfg, ht.devReg]
    exact (if_neg (Config.named_ne hwf 8 1 (by decide))).trans
      ((if_neg (Config.named_ne hwf 7 1 (by decide))).trans (if_pos rfl))
  obtain ⟨u, hu⟩ := init_transition.runs ht.hostAt (ht.wf hwf) hreg
  rw [ht.cfg, withMode_opmodeInit] at hu
  exact ⟨u, ht.trans hu⟩

end

/-- Settles O29: the pulse, the configuration of the device, and the transition to Standby. -/
theorem initBringsTheDeviceUp : Obligations.InitBringsTheDeviceUp := by
  unfold Obligations.InitBringsTheDeviceUp
  intro s b hwf hs hb
  obtain rfl : b = opmodeInit s.cfg := hb
  obtain ⟨p, hp⟩ := init_pulses (hs.bodyStart .init)
  have hcfg : p.cfg = s.cfg := hp.cfg
  obtain ⟨t, ht⟩ := init_runs hp.hostAt (hcfg ▸ hwf)
  rw [hcfg] at ht
  have htcfg := ht.cfg.trans hcfg
  have hopmode : t.devReg s.cfg.aOpmode = opmodeInit s.cfg + 1 := (ht.devReg _).trans (if_pos rfl)
  have hmode : t.devMode = modeStdby := by
    rw [State.devMode, htcfg, hopmode, ← withMode_opmodeInit, modeField_withMode]
  have hret := init_transition.returns ht.hostAt (htcfg ▸ hwf) hmode rfl
  refine ⟨_, (execTimes_bodyStart rfl rfl hs 8).trans
    ((execTimes_step hp.run 7).trans ((ht.run 1).trans (execTimes_step hret 0))), ?_, rfl, rfl, rfl, hopmode,
    ?_, ?_, ?_, ht.irqPrev.trans hp.irqPrev, ht.irqLatch.trans hp.irqLatch, ht.devRst.trans hp.devRst,
    ht.x.trans hp.x, ?_⟩
  · exact State.endedOk_host (ht.host.trans hp.host) 0
  · exact (ht.devReg _).trans ((if_neg (Config.named_ne hwf 1 7 (by decide))).trans
      ((if_neg (Config.named_ne hwf 8 7 (by decide))).trans (if_pos rfl)))
  · exact (ht.devReg _).trans ((if_neg (Config.named_ne hwf 1 8 (by decide))).trans (if_pos rfl))
  · show t.devReg t.cfg.aIrqFlags = 0
    rw [htcfg, ht.devReg, ← hp.flags, State.flags, hcfg]
    exact (if_neg (Config.named_ne hwf 1 10 (by decide))).trans ((if_neg (Config.named_ne hwf 8 10 (by decide))).trans
      ((if_neg (Config.named_ne hwf 7 10 (by decide))).trans (if_neg (Config.named_ne hwf 1 10 (by decide)))))
  · obtain ⟨r, hr, hlog⟩ := ht.trace
    have htrace : t.trace = s.trace ++ r := hr.trans (congrArg (· ++ r) hp.trace)
    show ((t.trace ++ [t.okRec .rd t.cfg.aOpmode [t.devReg t.cfg.aOpmode]]).drop s.trace.length).map _ = _
    rw [htcfg, hopmode, htrace, List.append_assoc, List.drop_left, List.map_append, hlog]
    rfl

end Sys2Proof.Machine
end

section
namespace Sys2Proof.Machine

/-! A safe state goes on: what each micro-step needs to end without a stop, and that a safe state supplies it. -/

/-! ## Micro-steps that do not stop -/

/-- A burst of two or more bytes off the FIFO register, to which the spec gives no meaning (20_memory.md R74). -/
def isBurstOffFifo (c : Config) : Instr → Bool
  | .rdburst a n | .wrburst a n => a != c.aFifo && decide (2 ≤ n.toNat)
  | _ => false

/-- A micro-step goes on, returns or raises an error, or is refused where `burst` says so. -/
def Post.goesOn (burst : Bool) : Post where
  cont _ := True
  done _ _ := True
  raise _ _ := True
  fault _ := False
  refused r := r = .burstOffFifo ∧ burst = true

/-- What a transaction needs so as not to stop: the lock is held and the pointer has a cell under it. -/
structure CanAccess (s : State) : Prop where
  owner : s.lockOwner ≠ .none
  pointer : s.fifoPtr < s.cfg.fifoSize

theorem CanAccess.singleStops {s : State} (h : CanAccess s) (b : Bool) (a : Addr) :
    (Post.goesOn b).SingleStops s a :=
  ⟨fun ho => absurd ho h.owner, fun _ hp => absurd h.pointer hp⟩

theorem CanAccess.registers {s : State} (h : CanAccess s) (p : PeRegs) (l : Bool) :
    CanAccess { s with pe := p, irqLatch := l } := ⟨h.owner, h.pointer⟩

/-- An 8-bit pointer lies inside a FIFO of 256 cells. -/
theorem CanAccess.of_size {s : State} (h : s.cfg.fifoSize = 256) (ho : s.lockOwner ≠ .none) : CanAccess s :=
  ⟨ho, (s.devReg s.cfg.aFifoAddrPtr).isLt.trans_eq h.symm⟩

section
variable {s : State} (hs : CanAccess s) {burst : Bool}
include hs

theorem readReg_goesOn {a : Addr} {k : Byte → State → Micro}
    (hk : ∀ b t, (k b t).Sat (.goesOn burst) := by exact fun _ _ => trivial) :
    (readReg a s k).Sat (.goesOn burst) :=
  readReg_sat (fun b t _ _ _ => hk b t) (fun _ _ _ => trivial) (hs.singleStops burst a)

theorem writeReg_goesOn {a : Addr} {v : Byte} {k : State → Micro}
    (hk : ∀ t, (k t).Sat (.goesOn burst) := by exact fun _ => trivial) :
    (writeReg a v s k).Sat (.goesOn burst) :=
  writeReg_sat (fun t _ _ _ => hk t) (fun _ _ _ => trivial) (hs.singleStops burst a)

/-- A burst that is at the FIFO register, or of one byte, or one that `burst` allows to be refused. -/
theorem burstRead_goesOn {a : Addr} {n : Nat} {k : List Byte → State → Micro}
    (hb : a ≠ s.cfg.aFifo → n ≠ 1 → burst = true)
    (hk : ∀ bs t, (k bs t).Sat (.goesOn burst) := by exact fun _ _ => trivial) :
    ((busRead a n s).andThen k).Sat (.goesOn burst) :=
  burstRead_sat (fun bs t _ _ _ _ => hk bs t) (fun _ _ _ => trivial) (hs.singleStops burst a)
    fun ha hn => ⟨rfl, hb ha hn⟩

theorem burstWrite_goesOn {a : Addr} {d : List Byte} {k : List Byte → State → Micro}
    (hb : a ≠ s.cfg.aFifo → d.length ≠ 1 → burst = true)
    (hk : ∀ bs t, (k bs t).Sat (.goesOn burst) := by exact fun _ _ => trivial) :
    ((busWrite a d s).andThen k).Sat (.goesOn burst) :=
  burstWrite_sat (fun t _ _ _ => hk [] t) (fun _ _ _ => trivial) (hs.singleStops burst a)
    fun ha hn => ⟨rfl, hb ha hn⟩

theorem setModeStep_goesOn {target : ModeCode} {retry : Bool} {k : State → Micro} (hsub : s.seq.sub ≠ .none)
    (hk : ∀ t, (k t).Sat (.goesOn burst) := by exact fun _ => trivial) :
    (setModeStep target retry s k).Sat (.goesOn burst) := by
  unfold setModeStep
  split
  · exact readReg_goesOn (hs.registers ..) fun _ _ => trivial
  · exact writeReg_goesOn hs
  · refine readReg_goesOn hs fun r t => ?_
    split
    · exact hk _
    · split
      · trivial
      · trivial
  · next h => exact absurd h hsub

theorem waitStep_goesOn {bit : Byte} {timeout : Err} {k : State → Micro}
    (hk : ∀ t, (k t).Sat (.goesOn burst) := by exact fun _ => trivial) :
    (waitStep bit timeout s k).Sat (.goesOn burst) := by
  unfold waitStep
  split
  · refine readReg_goesOn hs fun f t => ?_
    dsimp only
    split
    · exact hk _
    · split
      · trivial
      · trivial
  · unfold irqStep
    split
    · refine readReg_goesOn (hs.registers ..) fun f t => ?_
      dsimp only
      split
      · exact hk _
      · trivial
    · split
      · trivial
      · trivial

end

/-! ## The bodies at their own micro-steps -/

theorem atOneOf_iff {l : List Main} {q : Seq} : atOneOf l q = true ↔ ∃ m ∈ l, q = ⟨m, .none⟩ := by
  obtain ⟨m, b⟩ := q
  simp [atOneOf]

/-- A burst that may be refused has two bytes or more. -/
theorem isBurst_of_length {c : Config} {a : Addr} {n : Byte} (hn : n ≠ 0) (ha : a ≠ c.aFifo) (h1 : n.toNat ≠ 1) :
    isBurstOffFifo c (.rdburst a n) = true ∧ isBurstOffFifo c (.wrburst a n) = true := by
  have h0 : n.toNat ≠ 0 := fun e => hn (BitVec.eq_of_toNat_eq e)
  have h2 : 2 ≤ n.toNat := by omega
  simp [isBurstOffFifo, ha, h2]

section
variable {s : State} (hs : CanAccess s) {burst : Bool}
include hs

theorem rdregBody_goesOn (a : Addr) (hq : atOneOf [.xTxn] s.seq = true) :
    (rdregBody a s).Sat (.goesOn burst) := by
  obtain ⟨m, hm, hq⟩ := atOneOf_iff.1 hq
  obtain rfl := List.mem_singleton.1 hm
  simp only [rdregBody, hq]
  exact readReg_goesOn hs

theorem wrregBody_goesOn (a : Addr) (d : Byte) (hq : atOneOf [.xTxn] s.seq = true) :
    (wrregBody a d s).Sat (.goesOn burst) := by
  obtain ⟨m, hm, hq⟩ := atOneOf_iff.1 hq
  obtain rfl := List.mem_singleton.1 hm
  simp only [wrregBody, hq]
  exact writeReg_goesOn hs

theorem rdburstBody_goesOn (a : Addr) (n : Byte) (hq : atOneOf [.xTxn] s.seq = true) :
    (rdburstBody a n s).Sat (.goesOn (isBurstOffFifo s.cfg (.rdburst a n))) := by
  obtain ⟨m, hm, hq⟩ := atOneOf_iff.1 hq
  obtain rfl := List.mem_singleton.1 hm
  simp only [rdburstBody, hq]
  split
  · trivial
  · next hn => exact burstRead_goesOn hs fun ha h1 => (isBurst_of_length hn ha h1).1

theorem wrburstBody_goesOn (a : Addr) (n : Byte) (hl : s.pe.buf.length = 255) (hq : atOneOf [.xTxn] s.seq = true) :
    (wrburstBody a n s).Sat (.goesOn (isBurstOffFifo s.cfg (.wrburst a n))) := by
  obtain ⟨m, hm, hq⟩ := atOneOf_iff.1 hq
  obtain rfl := List.mem_singleton.1 hm
  have hlen : (s.pe.buf.take n.toNat).length = n.toNat := List.length_take_of_le (by omega)
  simp only [wrburstBody, hq]
  split
  · trivial
  · next hn => exact burstWrite_goesOn hs fun ha h1 => (isBurst_of_length hn ha (hlen ▸ h1)).2

theorem rmwBody_goesOn {a : Addr} {mask val : Byte} {pos : Nat} {commit : State → State}
    (hq : atOneOf [.cRd, .cWr] s.seq = true) : (rmwBody a mask pos val commit s).Sat (.goesOn burst) := by
  unfold rmwBody
  split
  · exact readReg_goesOn hs
  · exact writeReg_goesOn hs
  · simp_all [atOneOf_iff]

theorem setpreBody_goesOn (n : BitVec 16) (hq : atOneOf [.cWr, .cW2] s.seq = true) :
    (setpreBody n s).Sat (.goesOn burst) := by
  unfold setpreBody
  split
  · exact writeReg_goesOn hs
  · exact writeReg_goesOn hs
  · simp_all [atOneOf_iff]

theorem setfreqBody_goesOn (f : Word32) (hq : atOneOf [.cWr, .cW2, .cW3] s.seq = true) :
    (setfreqBody f s).Sat (.goesOn burst) := by
  unfold setfreqBody
  split
  · exact writeReg_goesOn hs
  · exact writeReg_goesOn hs
  · exact writeReg_goesOn hs
  · simp_all [atOneOf_iff]

theorem setpwrBody_goesOn (p : Byte) (hq : atOneOf [.cWr, .cW2] s.seq = true) :
    (setpwrBody p s).Sat (.goesOn burst) := by
  unfold setpwrBody
  split
  · exact writeReg_goesOn hs
  · exact writeReg_goesOn hs
  · simp_all [atOneOf_iff]

theorem getBody_goesOn (a : Addr) (field : Byte → Word32) (hq : atOneOf [.gR1] s.seq = true) :
    (getBody a field s).Sat (.goesOn burst) := by
  unfold getBody
  split
  · exact readReg_goesOn hs
  · simp_all [atOneOf_iff]

theorem getpreBody_goesOn (hq : atOneOf [.gR1, .gR2] s.seq = true) : (getpreBody s).Sat (.goesOn burst) := by
  unfold getpreBody
  split
  · exact readReg_goesOn hs
  · exact readReg_goesOn hs
  · simp_all [atOneOf_iff]

theorem getfreqBody_goesOn (hq : atOneOf [.gR1, .gR2, .gR3] s.seq = true) :
    (getfreqBody s).Sat (.goesOn burst) := by
  unfold getfreqBody
  split
  · exact readReg_goesOn hs
  · exact readReg_goesOn hs
  · exact readReg_goesOn hs
  · simp_all [atOneOf_iff]

theorem setmodeBody_goesOn (m : ModeCode) (hq : bodySeq (.setmode m) s.seq = true) :
    (setmodeBody m s).Sat (.goesOn burst) := by
  simp only [bodySeq, Bool.and_eq_true, beq_iff_eq, bne_iff_ne] at hq
  obtain ⟨hmain, hsub⟩ := hq
  simp only [setmodeBody, hmain]
  exact setModeStep_goesOn hs hsub

/-- INIT at one of its micro-steps (42_mode_controller.md R195). -/
theorem initBody_goesOn (hq : isInitSeq s.seq = true) : (initBody s).Sat (.goesOn burst) := by
  unfold initBody
  split
  case h_1 => trivial
  case h_2 => exact writeReg_goesOn hs
  case h_3 =>
    refine readReg_goesOn hs fun r t => ?_
    split
    · trivial
    · trivial
  case h_4 => exact writeReg_goesOn hs
  case h_5 => exact writeReg_goesOn hs
  case h_6 h => exact setModeStep_goesOn hs (by simpa [h, isInitSeq] using hq)
  case h_7 => -- no other position is one of INIT
    unfold isInitSeq at hq
    split at hq <;> simp_all

theorem peTransmit_goesOn (hq : isTransmitSeq s.seq = true) : (peTransmit s).Sat (.goesOn burst) := by
  unfold peTransmit
  split
  case h_1 => trivial
  case h_2 h hn => exact setModeStep_goesOn hs (by simp_all)
  case h_3 => exact readReg_goesOn hs
  case h_4 => exact writeReg_goesOn hs
  case h_5 => exact burstWrite_goesOn hs fun ha => absurd rfl ha
  case h_6 => exact writeReg_goesOn hs
  case h_7 => exact writeReg_goesOn hs
  case h_8 h => exact setModeStep_goesOn hs (by simpa [h, isTransmitSeq] using hq)
  case h_9 => exact waitStep_goesOn hs
  case h_10 => exact writeReg_goesOn hs
  case h_11 h => exact setModeStep_goesOn hs (by simpa [h, isTransmitSeq] using hq)
  case h_12 => -- no other position is one of the procedure
    unfold isTransmitSeq at hq
    split at hq <;> simp_all

theorem peReceive_goesOn (hq : isReceiveSeq s.seq = true) : (peReceive s).Sat (.goesOn burst) := by
  unfold peReceive
  split
  case h_1 => trivial
  case h_2 h hn => exact setModeStep_goesOn hs (by simp_all)
  case h_3 => trivial
  case h_4 h hn => exact setModeStep_goesOn hs (by simp_all)
  case h_5 => exact waitStep_goesOn hs
  case h_6 => trivial
  case h_7 => exact readReg_goesOn hs
  case h_8 => exact readReg_goesOn hs
  case h_9 => exact writeReg_goesOn hs
  case h_10 =>
    split
    · trivial
    · exact burstRead_goesOn hs fun ha => absurd rfl ha
  case h_11 => exact writeReg_goesOn hs
  case h_12 h =>
    refine setModeStep_goesOn hs (by simpa [h, isReceiveSeq] using hq) fun t => ?_
    split
    · trivial
    · trivial
  case h_13 => -- no other position is one of the procedure
    unfold isReceiveSeq at hq
    split at hq <;> simp_all

end

/-! ## The executor and the senders -/

/-- The body of every command of the envelope, at its own micro-steps. -/
theorem envelopeOf_body_goesOn {i : Instr} {s : State} (hi : usesEnvelope i = true) (hs : CanAccess s)
    (hl : s.pe.buf.length = 255) (hq : bodySeq i s.seq = true) :
    ((envelopeOf s.cfg i).body s).Sat (.goesOn (isBurstOffFifo s.cfg i)) := by
  cases i with
  | rdreg a => exact rdregBody_goesOn hs a hq
  | wrreg a d => exact wrregBody_goesOn hs a d hq
  | rdburst a n => exact rdburstBody_goesOn hs a n hq
  | wrburst a n => exact wrburstBody_goesOn hs a n hl hq
  | setsf | setbw | setcr | setcrc => exact rmwBody_goesOn hs hq
  | setpre n => exact setpreBody_goesOn hs n hq
  | setfreq f => exact setfreqBody_goesOn hs f hq
  | setpwr d => exact setpwrBody_goesOn hs _ hq
  | getsf | getbw | getcr | getcrc => exact getBody_goesOn hs _ _ hq
  | getpre => exact getpreBody_goesOn hs hq
  | getfreq => exact getfreqBody_goesOn hs hq
  | setmode m => exact setmodeBody_goesOn hs m hq
  | init => exact initBody_goesOn hs hq
  | transmit len => exact Micro.onDone_sat (peTransmit_goesOn hs hq)
  | receive => exact Micro.onDone_sat (peReceive_goesOn hs hq)
  | ismode | schstart | busRd | busWr => cases hi

/-- An operation answers a next state, or it is refused where `burst` says so. -/
def Continues (burst : Bool) (r : Host.Outcome State Fault Refusal) : Prop :=
  (∃ t, r = .next t) ∨ (r = .refused .burstOffFifo ∧ burst = true)

theorem Continues.of_next {burst : Bool} (t : State) : Continues burst (.next t) := .inl ⟨t, rfl⟩

theorem Envelope.run_continues {v : Envelope} {s : State} {burst : Bool} (h : (v.body s).Sat (.goesOn burst)) :
    Continues burst (v.run s) := by
  unfold Envelope.run
  cases hm : v.body s with
  | cont t => exact .of_next _
  | done r t => exact .of_next _
  | raise e t => exact .of_next _
  | fault f => rw [hm] at h; exact h.elim
  | refused r =>
    rw [hm] at h
    obtain ⟨rfl, hb⟩ := h
    exact .inr ⟨rfl, hb⟩

/-- The state with a move taken from the script, or drawn, and the draw of the bus set, is as safe. -/
theorem Safe.moved {s : State} (h : Safe s) (env : List Event) (drawn : Nat) (f : Bool) :
    Safe { s with env := env, drawn := drawn, busFails := f } :=
  ⟨h.config, ⟨h.memory.regWf, h.memory.regInside, h.memory.fifoWf, h.memory.fifoInside⟩,
    ⟨h.buffers.hbuf, h.buffers.rbuf, h.buffers.peBuf, h.buffers.sBuf, h.buffers.snap⟩,
    ⟨h.lock.host, h.lock.sender, h.lock.idle, h.lock.sending, h.lock.body, h.lock.command, h.lock.payload⟩,
    ⟨h.lines.sel, h.lines.devRst, h.lines.bracket⟩⟩

theorem State.cmdIs_of_decodeCmd {s : State} {i : Instr} (hd : decodeCmd s.host.cmd = .ok i) (p : Instr → Bool) :
    s.cmdIs p = p i := by
  simp only [State.cmdIs, hd]

section
variable {s : State} (h : Safe s) (hsize : s.cfg.fifoSize = 256)
include h hsize

/-- A step on the accepted command, by its place in the envelope. -/
theorem Safe.exec_continues {i : Instr} (hd : decodeCmd s.host.cmd = .ok i) (hi : usesEnvelope i = true) :
    Continues (s.cmdIs (isBurstOffFifo s.cfg)) (exec i s) := by
  cases hp : s.host.pos with
  | e0 => exact exec_at_e0 hi hp ▸ .of_next _
  | e2 d => exact exec_at_e2 hi hp ▸ .of_next _
  | e3 =>
    have ho : s.lockOwner = .host := h.lock.host.1 hp
    have hq : bodySeq i s.seq = true := (s.cmdIs_of_decodeCmd hd _).symm.trans (h.lock.body ho)
    rw [exec_eq_envelopeOf hi, Envelope.exec, hp, s.cmdIs_of_decodeCmd hd]
    exact Envelope.run_continues (envelopeOf_body_goesOn hi (.of_size hsize (by simp [ho])) h.buffers.peBuf hq)

theorem Safe.executorStep_continues : Continues (s.cmdIs (isBurstOffFifo s.cfg)) (executorStep s) := by
  unfold executorStep
  split
  · cases hd : decodeCmd s.host.cmd with
    | error e => exact .of_next _
    | ok i =>
      by_cases hi : usesEnvelope i = true
      · exact h.exec_continues hsize hd hi
      · have hcmd := encodeCmd_of_decodeCmd hd
        cases i with
        | ismode m => exact .of_next _
        | schstart m => exact .of_next _
        | busRd | busWr => cases hcmd
        | _ => exact absurd rfl hi
  · exact .of_next _

/-- A sender in SEND holds the lock and stands at a micro-step of the transmit procedure. -/
theorem Safe.senderStep_next (i : Sid) (k : Bool) : ∃ t, senderStep i k s = .next t := by
  unfold senderStep
  split
  case h_5 hp =>
    have ho : s.lockOwner = .s i := (h.lock.sender i).1 (by rw [hp]; rfl)
    have hq : isTransmitSeq s.seq = true := by simpa [hp] using h.lock.sending i ho
    have hm := peTransmit_goesOn (burst := false) (.of_size hsize (by simp [ho])) hq
    unfold senderSend
    split
    · exact ⟨_, rfl⟩
    · cases he : peTransmit s with
      | cont t => exact ⟨_, rfl⟩
      | done r t => exact ⟨_, rfl⟩
      | raise e t => exact ⟨_, rfl⟩
      | fault f => rw [he] at hm; exact hm.elim
      | refused r => rw [he] at hm; exact absurd hm.2 Bool.false_ne_true
  all_goals exact ⟨_, rfl⟩

end

/-- What may stop in a move of a safe state is the executor's burst only. -/
theorem Safe.runEvent_continues {s : State} (h : Safe s) (hsize : s.cfg.fifoSize = 256) (e : Event) :
    Continues (s.cmdIs (isBurstOffFifo s.cfg)) (runEvent e s) := by
  cases e with
  | exec f => exact (h.moved s.env s.drawn f).executorStep_continues hsize
  | sender i k f => exact .inl ((h.moved s.env s.drawn f).senderStep_next hsize i k)
  | _ => exact .of_next _

/-- The accepted command and the configuration are the same once the move is chosen. -/
theorem nextEvent_safe {s : State} (h : Safe s) :
    Safe (nextEvent s).2 ∧ (nextEvent s).2.cfg = s.cfg ∧ (nextEvent s).2.host = s.host := by
  unfold nextEvent
  split
  · exact ⟨h.moved _ s.drawn s.busFails, rfl, rfl⟩
  · exact ⟨h.moved s.env _ s.busFails, rfl, rfl⟩

/-- Settles O59: no bracket is open, and the move chosen goes on or is the executor's burst. -/
theorem safeStatesGoOn : Obligations.SafeStatesGoOn := by
  unfold Obligations.SafeStatesGoOn
  intro s h hsize
  obtain ⟨hsafe, hcfg, hhost⟩ := nextEvent_safe h
  have hstep : step s = runEvent (nextEvent s).1 (nextEvent s).2 := by rw [step, h.lines.bracket]
  have hrun := hsafe.runEvent_continues (hcfg ▸ hsize) (nextEvent s).1
  rw [← hstep, State.cmdIs, hhost, hcfg] at hrun
  exact hrun

end Sys2Proof.Machine
end

section
namespace Sys2Proof.Machine

/-! The completion wait of TRANSMIT and RECEIVE on a healthy bus (43_packet_engine.md R213, R214, R220). -/

/-! ## The end of a command by an error without info -/

theorem sameDevice_of_dev {s t : State} (h : t.dev = s.dev) : sameDevice s t :=
  ⟨State.devReg_congr (congrArg Device.reg h), State.devFifo_congr (congrArg Device.fifo h)⟩

/-- A command has ended by an error without info that its body raised in state `u`. -/
structure EndsByError (i : Instr) (e : Err) (s u t : State) : Prop where
  run : exec i s = .next t
  ended : EndedByError t e.code 0
  dev : t.dev = u.dev
  trace : t.trace = u.trace
  modeShadow : t.modeShadow = u.modeShadow

/-- Whatever the command adds on an error. -/
theorem HostAt.endsByError {i : Instr} {s u : State} {q : Seq} {e : Err} (hs : HostAt s q) (hi : usesEnvelope i = true)
    (hb : (envelopeOf s.cfg i).body s = .raise e u) (he : e.info = 0) : ∃ t, EndsByError i e s u t := by
  have hx := envelopeOf_onErr s.cfg i e (u.endedErr e)
  exact ⟨_, exec_of_body_raise hi hs hb,
    ⟨hx.status, hx.res.elim (·.trans he) id, hx.busy, hx.pos, hx.lockOwner, hx.seq⟩, hx.dev, hx.trace, hx.modeShadow⟩

/-! ## One step of the wait -/

/-- The state after one poll of the flags (43_packet_engine.md R213). -/
def State.polled (s : State) : State :=
  { s.afterRead s.cfg.aIrqFlags with pe := { s.pe with flags := s.flags, cnt := s.pe.cnt + 1 } }

/-- The state after a notification was taken and the flags read (R214). -/
def State.notified (s : State) : State :=
  { s.afterRead s.cfg.aIrqFlags with irqLatch := false, pe := { s.pe with flags := s.flags } }

theorem HostAt.polled {s : State} {q : Seq} (hs : HostAt s q) : HostAt s.polled q :=
  ⟨hs.pos, hs.seq, hs.owner, hs.busFault, hs.busFails⟩

section
variable {s : State} {bit : Byte} {timeout : Err} {k : State → Micro} (hs : BusReady s) (hwf : s.cfg.wf = true)
include hs hwf

theorem waitStep_poll (hm : s.cfg.completionMode = .poll) :
    waitStep bit timeout s k =
      if s.flags &&& bit ≠ 0 then k s.polled
      else if s.pe.cnt + 1 = s.cfg.retryBound then .raise timeout s.polled
      else .cont s.polled := by
  simp only [waitStep, hm, pollStep]
  exact readReg_stored hs (reads_aIrqFlags hwf) _

theorem waitStep_notified (hm : s.cfg.completionMode = .irq) (hl : s.irqLatch = true) :
    waitStep bit timeout s k = if s.flags &&& bit ≠ 0 then k s.notified else .cont s.notified := by
  simp only [waitStep, hm, irqStep, if_pos hl]
  exact readReg_stored (hs.registers s.pe false) (reads_aIrqFlags hwf) _

end

theorem waitStep_notNotified {s : State} {bit : Byte} {timeout : Err} {k : State → Micro}
    (hm : s.cfg.completionMode = .irq) (hl : s.irqLatch = false) :
    waitStep bit timeout s k = if timeReached s.now s.pe.deadline then .raise timeout s else .cont s := by
  simp only [waitStep, hm, irqStep, hl, Bool.false_eq_true, if_false]

/-! ## The commands that wait -/

theorem waitStep_onDone (bit : Byte) (timeout : Err) (s : State) (k : State → Micro) (g : Word32 → State → Micro) :
    (waitStep bit timeout s k).onDone g = waitStep bit timeout s fun t => (k t).onDone g := by
  unfold waitStep
  split
  · refine (Txn.andThen_onDone _ _ _).trans (congrArg _ (funext fun bs => funext fun t => ?_))
    dsimp only
    split
    · rfl
    · split <;> rfl
  · unfold irqStep
    split
    · refine (Txn.andThen_onDone _ _ _).trans (congrArg _ (funext fun bs => funext fun t => ?_))
      dsimp only
      split <;> rfl
    · split <;> rfl

/-- At main step `w` the body of command `i` waits for the flag `bit`, after which it goes on at `next`. -/
structure CompletionWait (i : Instr) (w next : Main) (bit : Byte) (timeout : Err) : Prop where
  envelope : usesEnvelope i = true
  body : ∀ s : State, s.seq = ⟨w, .none⟩ →
    (envelopeOf s.cfg i).body s = waitStep bit timeout s fun t => .cont (t.goto next)
  info : timeout.info = 0

theorem transmit_wait (len : BitVec 16) :
    CompletionWait (.transmit len) .tWait .tAck flagTxDone .transmitTimeout where
  envelope := rfl
  body s hq := by
    show (peTransmit s).onDone _ = _
    simp only [peTransmit, hq]
    exact waitStep_onDone ..
  info := rfl

theorem receive_wait : CompletionWait .receive .rWait .rCrc flagRxDone .receiveTimeout where
  envelope := rfl
  body s hq := by
    show (peReceive s).onDone _ = _
    simp only [peReceive, hq]
    exact waitStep_onDone ..
  info := rfl

/-! ## Polls without an answer -/

/-- A poll is made at least once (00_scope.md R7). -/
theorem Config.one_le_retryBound {c : Config} (h : c.wf = true) : 1 ≤ c.retryBound.toNat := by
  simp only [Config.wf, Config.boundsOk, Bool.and_eq_true, decide_eq_true_eq] at h
  tauto

/-- `n` polls have been made: what they leave as it was, the count, and the log. -/
structure Polls (n : Nat) (s t : State) : Prop where
  cfg : t.cfg = s.cfg
  host : t.host = s.host
  dev : t.dev = s.dev
  modeShadow : t.modeShadow = s.modeShadow
  lockOwner : t.lockOwner = s.lockOwner
  cnt : t.pe.cnt = s.pe.cnt + BitVec.ofNat 32 n
  trace : t.trace = s.trace ++ List.replicate n (s.okRec .rd s.cfg.aIrqFlags [s.flags])

theorem Polls.zero (s : State) : Polls 0 s s :=
  ⟨rfl, rfl, rfl, rfl, rfl, (BitVec.add_zero _).symm, (List.append_nil _).symm⟩

theorem Polls.one (s : State) : Polls 1 s s.polled := ⟨rfl, rfl, rfl, rfl, rfl, rfl, rfl⟩

theorem Polls.flags {n : Nat} {s t : State} (h : Polls n s t) : t.flags = s.flags := by
  rw [State.flags, State.flags, h.cfg]
  exact State.devReg_congr (congrArg Device.reg h.dev) _

/-- Every poll reads the same flags. -/
theorem Polls.trans {m n : Nat} {s t u : State} (h : Polls m s t) (g : Polls n t u) : Polls (m + n) s u where
  cfg := g.cfg.trans h.cfg
  host := g.host.trans h.host
  dev := g.dev.trans h.dev
  modeShadow := g.modeShadow.trans h.modeShadow
  lockOwner := g.lockOwner.trans h.lockOwner
  cnt := by rw [g.cnt, h.cnt, BitVec.ofNat_add, BitVec.add_assoc]
  trace := by
    have hrec : t.okRec .rd t.cfg.aIrqFlags [t.flags] = s.okRec .rd s.cfg.aIrqFlags [s.flags] := by
      rw [State.okRec, State.okRec, h.cfg, h.flags, h.lockOwner]
    rw [g.trace, h.trace, hrec, List.append_assoc, List.replicate_add]

section
variable {i : Instr} {w next : Main} {bit : Byte} {timeout : Err} (h : CompletionWait i w next bit timeout)
include h

/-- One poll that does not show the flag and is not the last one. -/
theorem CompletionWait.pollAgain {s : State} (hs : HostAt s ⟨w, .none⟩) (hwf : s.cfg.wf = true)
    (hm : s.cfg.completionMode = .poll) (hf : s.flags &&& bit = 0) (hc : s.pe.cnt + 1 ≠ s.cfg.retryBound) :
    exec i s = .next s.polled :=
  exec_of_body_cont h.envelope hs <| (h.body s hs.seq).trans <|
    (waitStep_poll hs.ready hwf hm).trans ((if_neg (not_not.2 hf)).trans (if_neg hc))

/-- The last poll does not show the flag either. -/
theorem CompletionWait.pollTimesOut {s : State} (hs : HostAt s ⟨w, .none⟩) (hwf : s.cfg.wf = true)
    (hm : s.cfg.completionMode = .poll) (hf : s.flags &&& bit = 0) (hc : s.pe.cnt + 1 = s.cfg.retryBound) :
    ∃ t, EndsByError i timeout s s.polled t :=
  hs.endsByError h.envelope ((h.body s hs.seq).trans <|
    (waitStep_poll hs.ready hwf hm).trans ((if_neg (not_not.2 hf)).trans (if_pos hc))) h.info

/-- Polls before the bound, by induction on their number. -/
theorem CompletionWait.polls {n : Nat} : ∀ {s : State}, HostAt s ⟨w, .none⟩ → s.cfg.wf = true →
    s.cfg.completionMode = .poll → s.flags &&& bit = 0 → s.pe.cnt.toNat + n < s.cfg.retryBound.toNat →
    ∃ t, (∀ k, execTimes (k + n) i s = execTimes k i t) ∧ HostAt t ⟨w, .none⟩ ∧ Polls n s t := by
  induction n with
  | zero => exact fun {s} hs _ _ _ _ => ⟨s, fun _ => rfl, hs, .zero s⟩
  | succ n ih =>
    intro s hs hwf hm hf hn
    have hcnt : (s.pe.cnt + 1).toNat = s.pe.cnt.toNat + 1 := by
      rw [BitVec.toNat_add]
      exact Nat.mod_eq_of_lt (by have := s.cfg.retryBound.isLt; show s.pe.cnt.toNat + 1 < _; omega)
    have hstep := h.pollAgain hs hwf hm hf fun e => by
      have := congrArg BitVec.toNat e
      omega
    obtain ⟨t, hrun, hat, hp⟩ := ih (s := s.polled) hs.polled hwf hm hf
      (by show (s.pe.cnt + 1).toNat + n < s.cfg.retryBound.toNat; omega)
    exact ⟨t, fun k => (execTimes_step hstep (k + n)).trans (hrun k), hat, Nat.add_comm 1 n ▸ (Polls.one s).trans hp⟩

end

/-- Settles O36: polls before the bound, and the last one. -/
theorem pollTimesOutExactly : Obligations.PollTimesOutExactly := by
  unfold Obligations.PollTimesOutExactly
  intro s len i w bit code hmem hwf hm hs hc hf
  obtain ⟨next, timeout, h, rfl⟩ : ∃ next timeout, CompletionWait i w next bit timeout ∧ code = timeout.code := by
    simp only [List.mem_cons, Prod.mk.injEq, List.not_mem_nil, or_false] at hmem
    obtain ⟨rfl, rfl, rfl, rfl⟩ | ⟨rfl, rfl, rfl, rfl⟩ := hmem
    · exact ⟨_, _, transmit_wait len, rfl⟩
    · exact ⟨_, _, receive_wait, rfl⟩
  have hpolls : ∀ n, n < s.cfg.retryBound.toNat →
      ∃ t, (∀ k, execTimes (k + n) i s = execTimes k i t) ∧ HostAt t ⟨w, .none⟩ ∧ Polls n s t := fun n hn =>
    h.polls hs hwf hm hf (by rw [hc]; show 0 + n < _; omega)
  refine ⟨fun n hn => ?_, ?_⟩
  · obtain ⟨t, hrun, hat, hp⟩ := hpolls n hn
    exact ⟨t, by simpa [execTimes] using hrun 0, hat.seq, hat.owner, hp.host, hp.trace⟩
  · obtain ⟨n, hn⟩ := Nat.exists_eq_add_of_le' (Config.one_le_retryBound hwf)
    obtain ⟨t, hrun, hat, hp⟩ := hpolls n (by omega)
    have hlast : t.pe.cnt + 1 = t.cfg.retryBound := by
      rw [hp.cnt, hc, hp.cfg]
      bv_omega
    obtain ⟨u, hu⟩ := h.pollTimesOut hat (hp.cfg ▸ hwf) (hp.cfg ▸ hm) (hp.flags ▸ hf) hlast
    have hall := hp.trans (.one t)
    rw [hn]
    exact ⟨u, (Nat.add_comm n 1 ▸ hrun 1).trans (execTimes_step hu.run 0), hu.ended,
      sameDevice_of_dev (hu.dev.trans hall.dev), hu.modeShadow.trans hall.modeShadow, hu.trace.trans hall.trace⟩

/-! ## Into and out of an interrupt wait -/

/-- Arming a wait writes the count or the deadline, as the completion mode says (R213, R214). -/
theorem State.armWait_eq (s : State) (m : Main) :
    s.armWait m = { s with
      seq := ⟨m, .none⟩
      pe := match s.cfg.completionMode with
        | .irq => { s.pe with deadline := s.now + s.cfg.irqTimeoutMs }
        | .poll => { s.pe with cnt := 0 } } := by
  unfold State.armWait
  cases s.cfg.completionMode <;> rfl

theorem ModeTransition.continues {i : Instr} {m : Main} {target : ModeCode} {retry : Bool} {k : State → Micro}
    (h : ModeTransition i m target retry k) {s : State} (hs : HostAt s ⟨m, .mVf⟩) (hwf : s.cfg.wf = true)
    (hd : s.devMode = target) {t : State}
    (hk : k (({ s with modeShadow := target } : State).afterRead s.cfg.aOpmode) = .cont t) : exec i s = .next t :=
  exec_of_body_cont h.envelope hs ((h.body_at hs (by decide)).trans ((setModeStep_verified hs hwf hd).trans hk))

/-- The flags register has been written on a healthy bus: the bits written as 1 are cleared, and nothing else of the
machine has changed but the interrupt line's latch and level and the log. -/
structure FlagsCleared (v : Byte) (s t : State) : Prop extends BusEffect s t where
  written : RegWritten s t s.cfg.aIrqFlags v (s.flags &&& ~~~v)
  edges : (t.irqLatch, t.irqPrev) = s.edgesAfter (s.flags &&& ~~~v)
  busFault : t.busFault = s.busFault
  fifo : t.dev.fifo = s.dev.fifo

theorem FlagsCleared.flags {v : Byte} {s t : State} (h : FlagsCleared v s t) : t.flags = s.flags &&& ~~~v := by
  rw [State.flags, h.cfg]
  exact h.written.reg

theorem writeReg_flagsCleared {s : State} (hs : BusReady s) (hwf : s.cfg.wf = true) (v : Byte) (k : State → Micro) :
    ∃ t, writeReg s.cfg.aIrqFlags v s k = k t ∧ FlagsCleared v s t := by
  obtain ⟨t, ht, hw, he⟩ := busWrite_flagsRegister hs (Config.flags_ne_fifo hwf) rfl v
  obtain rfl : t = (s.clearFlags v).closeTxn .wr s.cfg.aIrqFlags [v] := by
    cases ht.symm.trans (busWrite_flags hs (Config.flags_ne_fifo hwf) v)
    rfl
  have heff := txnEffect_close (devEffect_setFlags s (s.flags &&& ~~~v)) hs.busFault hs.owner .wr s.cfg.aIrqFlags [v]
  exact ⟨_, by rw [writeReg, ht]; rfl, heff.toBusEffect, hw, he, heff.healthy hs.busFails, by simp⟩

/-- T_CLR: TX-done is cleared, and then the latch (43_packet_engine.md R212). -/
theorem peTransmit_clear {s : State} (hs : HostAt s ⟨.tClr, .none⟩) (hwf : s.cfg.wf = true) :
    ∃ t, peTransmit s = .cont (({ t with irqLatch := false } : State).callSetMode .tMode) ∧
      FlagsCleared flagTxDone s t := by
  simp only [peTransmit, hs.seq]
  exact writeReg_flagsCleared hs.ready hwf flagTxDone _

/-- R_MODE: the latch is cleared (R216). -/
theorem peReceive_mode {s : State} (hs : HostAt s ⟨.rMode, .none⟩) :
    peReceive s = .cont (({ s with irqLatch := false } : State).callSetMode .rMode) := by
  simp only [peReceive, hs.seq]

section
variable {s t : State} {q : Seq}

theorem exec_transmit_cont (len : BitVec 16) (hs : HostAt s q) (h : peTransmit s = .cont t) :
    exec (.transmit len) s = .next t :=
  exec_of_body_cont rfl hs (by show (peTransmit s).onDone _ = _; rw [h]; rfl)

theorem exec_receive_cont (hs : HostAt s q) (h : peReceive s = .cont t) : exec .receive s = .next t :=
  exec_of_body_cont rfl hs (by show (peReceive s).onDone _ = _; rw [h]; rfl)

end

section
variable {i : Instr} {w next : Main} {bit : Byte} {timeout : Err} (h : CompletionWait i w next bit timeout)
  {s : State} (hs : HostAt s ⟨w, .none⟩) (hm : s.cfg.completionMode = .irq)
include h hs hm

/-- A notification is taken and the flags read once; the flag says whether the command goes on (R214). -/
theorem CompletionWait.notified (hwf : s.cfg.wf = true) (hl : s.irqLatch = true) :
    exec i s = .next (if s.flags &&& bit ≠ 0 then s.notified.goto next else s.notified) := by
  refine exec_of_body_cont h.envelope hs ((h.body s hs.seq).trans ((waitStep_notified hs.ready hwf hm hl).trans ?_))
  split <;> rfl

/-- Without a notification the reached deadline ends the command. -/
theorem CompletionWait.deadlineEnds (hl : s.irqLatch = false) (hd : timeReached s.now s.pe.deadline = true) :
    ∃ t, EndsByError i timeout s s t :=
  hs.endsByError h.envelope
    ((h.body s hs.seq).trans ((waitStep_notNotified hm hl).trans (if_pos hd))) h.info

theorem CompletionWait.stays (hl : s.irqLatch = false) (hd : ¬ timeReached s.now s.pe.deadline = true) :
    exec i s = .next s :=
  exec_of_body_cont h.envelope hs ((h.body s hs.seq).trans ((waitStep_notNotified hm hl).trans (if_neg hd)))

end

/-- Settles O37: the step that clears the latch, the one that arms the wait, and the four ends of one step of it. -/
theorem interruptWait : Obligations.InterruptWait := by
  unfold Obligations.InterruptWait
  refine fun s len hwf => ⟨fun hs => ?_, fun hs => exec_receive_cont hs (peReceive_mode hs), ?_, ?_⟩
  · obtain ⟨t, ht, hc⟩ := peTransmit_clear hs hwf
    refine ⟨_, exec_transmit_cont len hs ht, rfl, hc.flags, congrArg Prod.snd hc.edges, hc.written.others, rfl, ?_,
      hc.written.trace⟩
    show { t.pe with attempt := 0 } = _
    rw [hc.pe]
  · intro i m w target hmem hs hd
    simp only [List.mem_cons, Prod.mk.injEq, List.not_mem_nil, or_false] at hmem
    obtain ⟨rfl, rfl, rfl, rfl⟩ | ⟨rfl, rfl, rfl, rfl⟩ := hmem
    · exact (transmit_toTransmit len).continues hs hwf hd (congrArg Micro.cont (State.armWait_eq ..))
    · exact receive_toReceive.continues hs hwf hd (congrArg Micro.cont (State.armWait_eq ..))
  · intro i w next bit code hmem hm hs
    obtain ⟨timeout, h, rfl⟩ : ∃ timeout, CompletionWait i w next bit timeout ∧ code = timeout.code := by
      simp only [List.mem_cons, Prod.mk.injEq, List.not_mem_nil, or_false] at hmem
      obtain ⟨rfl, rfl, rfl, rfl, rfl⟩ | ⟨rfl, rfl, rfl, rfl, rfl⟩ := hmem
      · exact ⟨_, transmit_wait len, rfl⟩
      · exact ⟨_, receive_wait, rfl⟩
    refine ⟨fun hl hf => ?_, fun hl hf => ?_, fun hl hd => ?_, fun hl hd => ?_⟩
    · exact (h.notified hs hm hwf hl).trans (congrArg Host.Outcome.next (if_pos hf))
    · exact (h.notified hs hm hwf hl).trans (congrArg Host.Outcome.next (if_neg (not_not.2 hf)))
    · obtain ⟨t, ht⟩ := h.deadlineEnds hs hm hl (decide_eq_true hd)
      exact ⟨t, ht.run, ht.ended, sameDevice_of_dev ht.dev, ht.trace, ht.modeShadow⟩
    · exact h.stays hs hm hl fun e => absurd (of_decide_eq_true e) (Nat.not_lt.2 hd)

end Sys2Proof.Machine
end

section
namespace Sys2Proof.Machine

/-! TRANSMIT and RECEIVE run alone: the engine's micro-steps as functions of what the claims see of the state. -/

/-! ## What the claims see of the state -/

/-- What a record says, without the tag of its owner (10_state.md R53). -/
def TraceRec.entry (r : TraceRec) : BusKind × Addr × List Byte := (r.kind, r.addr, r.data)

/-- What the claims about the packet engine see of a state: the shadow, the working registers that a later micro-step
reads, the device's registers and FIFO, and the log. -/
structure EngineView where
  shadow : ModeCode
  len : Byte
  buf : List Byte
  flags : Byte
  tmp : Byte
  regs : Addr → Byte
  fifo : Memory
  log : List (BusKind × Addr × List Byte)

def State.engineView (s : State) : EngineView where
  shadow := s.modeShadow
  len := s.pe.len
  buf := s.pe.buf
  flags := s.pe.flags
  tmp := s.pe.tmp
  regs := s.devReg
  fifo := s.dev.fifo
  log := s.trace.map TraceRec.entry

namespace EngineView

/-- A single read of a register (20_memory.md R66). -/
@[simps] def read (v : EngineView) (a : Addr) : EngineView := { v with log := v.log ++ [(.rd, a, [v.regs a])] }

/-- A single write of plain storage (R66). -/
@[simps] def write (v : EngineView) (a : Addr) (b : Byte) : EngineView :=
  { v with regs := Function.update v.regs a b, log := v.log ++ [(.wr, a, [b])] }

/-- A write at the flags register (R70). -/
@[simps] def clear (v : EngineView) (c : Config) (b : Byte) : EngineView :=
  { v with
    regs := Function.update v.regs c.aIrqFlags (v.regs c.aIrqFlags &&& ~~~b)
    log := v.log ++ [(.wr, c.aIrqFlags, [b])] }

/-- The FIFO pointer (R62). -/
def ptr (v : EngineView) (c : Config) : Nat := (v.regs c.aFifoAddrPtr).toNat

/-- `n` bytes have moved at the FIFO register: the pointer is moved on (R67, R68). -/
@[simps] def advance (v : EngineView) (c : Config) (n : Nat) : EngineView :=
  { v with regs := Function.update v.regs c.aFifoAddrPtr (BitVec.ofNat 8 ((v.ptr c + n) % c.fifoSize)) }

/-- A write at the FIFO register (R68). -/
@[simps] def fifoWrite (v : EngineView) (c : Config) (d : List Byte) : EngineView :=
  { v.advance c d.length with
    fifo := Machine.fifoWrite c.fifoSize v.fifo (v.ptr c) d
    log := v.log ++ [(.wr, c.aFifo, d)] }

/-- What a read at the FIFO register gives (R67). -/
def fifoBytes (v : EngineView) (c : Config) (n : Nat) : List Byte := Machine.fifoRead c.fifoSize v.fifo (v.ptr c) n

/-- A read at the FIFO register into the working buffer; none for no bytes (43_packet_engine.md R216). -/
@[simps] def fifoRead (v : EngineView) (c : Config) (n : Nat) : EngineView :=
  { v.advance c n with
    buf := overlay v.buf (v.fifoBytes c n)
    log := v.log ++ if n = 0 then [] else [(.rd, c.aFifo, v.fifoBytes c n)] }

/-- The read and the write of a mode transition (42_mode_controller.md R191). -/
def requestMode (v : EngineView) (c : Config) (target : ModeCode) : EngineView :=
  (v.read c.aOpmode).write c.aOpmode (withMode (v.regs c.aOpmode) target)

/-- A mode transition that succeeds (R191). -/
@[simps] def setMode (v : EngineView) (c : Config) (target : ModeCode) : EngineView :=
  { (v.requestMode c target).read c.aOpmode with shadow := target }

/-- The flags read by the wait (43_packet_engine.md R213). -/
def waited (v : EngineView) (c : Config) : EngineView := { v.read c.aIrqFlags with flags := v.regs c.aIrqFlags }

/-- The flags of `b` acknowledged and the device back in Standby (43_packet_engine.md R212, R216). -/
def closed (v : EngineView) (c : Config) (b : Byte) : EngineView := (v.clear c b).setMode c modeStdby

/-- Standby forced where the shadow is elsewhere (43_packet_engine.md R218). -/
def ensureStandby (v : EngineView) (c : Config) : EngineView :=
  if v.shadow = modeStdby then v else v.setMode c modeStdby

end EngineView

/-! ## The view after a transaction -/

theorem State.devReg_putReg_eq (s : State) (a : Addr) (b : Byte) :
    (s.putReg a b).devReg = Function.update s.devReg a b := by
  funext x
  simp only [State.devReg_putReg, Function.update_apply, eq_comm]

section
variable {s t : State} {a : Addr} {b : Byte}

theorem State.engineView_afterRead
    (ht : ∃ q p m, t = { s.afterRead a with seq := q, pe := p, modeShadow := m } := by exact ⟨_, _, _, rfl⟩) :
    t.engineView = { s.engineView.read a with
      shadow := t.modeShadow, len := t.pe.len, buf := t.pe.buf, flags := t.pe.flags, tmp := t.pe.tmp } := by
  obtain ⟨q, p, m, rfl⟩ := ht
  simp only [State.engineView, EngineView.read, State.afterRead, List.map_append]
  rfl

theorem State.engineView_afterWrite
    (ht : ∃ q p m, t = { s.afterWrite a b with seq := q, pe := p, modeShadow := m } := by exact ⟨_, _, _, rfl⟩) :
    t.engineView = { s.engineView.write a b with
      shadow := t.modeShadow, len := t.pe.len, buf := t.pe.buf, flags := t.pe.flags, tmp := t.pe.tmp } := by
  obtain ⟨q, p, m, rfl⟩ := ht
  simp only [State.engineView, EngineView.write, ← s.devReg_putReg_eq, State.afterWrite, List.map_append]
  rfl

end

theorem State.devReg_of_engineView {s : State} {v : EngineView} (h : s.engineView = v) (a : Addr) :
    s.devReg a = v.regs a := congrFun (congrArg EngineView.regs h) a

theorem State.engineView_putReg (s : State) (a : Addr) (b : Byte) :
    (s.putReg a b).engineView = { s.engineView with regs := Function.update s.engineView.regs a b } := by
  simp only [State.engineView, State.devReg_putReg_eq]
  rfl

theorem State.engineView_setFlags (s : State) (b : Byte) :
    (s.setFlags b).engineView =
      { s.engineView with regs := Function.update s.engineView.regs s.cfg.aIrqFlags b } := by
  unfold State.setFlags
  split
  · next h => subst h; exact congrArg (fun r => { s.engineView with regs := r }) (Function.update_eq_self _ _).symm
  · exact s.engineView_putReg _ _

/-- A completed write at the FIFO register: the cells stored to, the pointer moved and the record (20_memory.md R68). -/
def State.afterFifoWrite (s : State) (d : List Byte) : State :=
  (({ s with dev := { s.dev with fifo := fifoWrite s.cfg.fifoSize s.dev.fifo s.fifoPtr d } } : State).setFifoPtr
    (s.fifoCell d.length)).closeTxn .wr s.cfg.aFifo d

@[simp] theorem State.afterFifoWrite_frame (s : State) (d : List Byte) :
    (s.afterFifoWrite d).cfg = s.cfg ∧ (s.afterFifoWrite d).host = s.host ∧
    (s.afterFifoWrite d).lockOwner = s.lockOwner ∧ (s.afterFifoWrite d).busFault = s.busFault ∧
    (s.afterFifoWrite d).busFails = s.busFails := by
  simp [State.afterFifoWrite]

theorem State.engineView_afterFifoWrite (s : State) (d : List Byte) :
    (s.afterFifoWrite d).engineView = s.engineView.fifoWrite s.cfg d := by
  simp only [State.engineView, EngineView.fifoWrite, EngineView.advance, EngineView.ptr, State.afterFifoWrite,
    State.closeTxn_vals, List.map_append]
  congr 1
  exact State.devReg_putReg_eq _ _ _

/-- A read of at least one byte at the FIFO register. -/
theorem State.engineView_afterFifoRead {s t : State} {n : Nat} (hp : s.fifoPtr < s.cfg.fifoSize) (hn : n ≠ 0)
    (ht : ∃ q p, t = { s.afterFifoRead n with seq := q, pe := { s.pe with buf := p } } := by exact ⟨_, _, rfl⟩)
    (hb : t.pe.buf = overlay s.pe.buf ((List.range n).map fun k => s.devFifo (s.fifoCell k)) := by rfl) :
    t.engineView = s.engineView.fifoRead s.cfg n := by
  obtain ⟨q, p, rfl⟩ := ht
  have hbytes : s.engineView.fifoBytes s.cfg n = (List.range n).map fun k => s.devFifo (s.fifoCell k) :=
    fifoRead_eq_map _ _ _ hp
  simp only [State.engineView] at hbytes
  simp only [State.engineView, EngineView.fifoRead, EngineView.advance, EngineView.ptr, hbytes, if_neg hn]
  congr 1
  · exact s.devReg_putReg_eq _ _
  · exact List.map_append

theorem FlagsCleared.engineView {b : Byte} {s t : State} (h : FlagsCleared b s t) :
    t.engineView = s.engineView.clear s.cfg b := by
  have hregs : t.devReg = Function.update s.devReg s.cfg.aIrqFlags (s.flags &&& ~~~b) := by
    funext x
    rw [Function.update_apply]
    split
    · next hx => rw [hx, h.written.reg]
    · next hx => exact h.written.others.1 x hx
  simp only [State.engineView, EngineView.clear, hregs, h.modeShadow, h.pe, h.fifo, h.written.trace, List.map_append]
  rfl

/-! ## Stretches of micro-steps -/

/-- Command `i`, run alone for `n` micro-steps from `s`, stands at `q`, and the claims see `v`. -/
structure Arrives (i : Instr) (n : Nat) (s t : State) (q : Seq) (v : EngineView) : Prop where
  run : ∀ k, execTimes (k + n) i s = execTimes k i t
  hostAt : HostAt t q
  cfg : t.cfg = s.cfg
  host : t.host = s.host
  view : t.engineView = v

theorem Arrives.runs {i : Instr} {n : Nat} {s t : State} {q : Seq} {v : EngineView} (h : Arrives i n s t q v) :
    execTimes n i s = .next t := by
  have h0 := h.run 0
  rwa [Nat.zero_add] at h0

/-- Whenever command `i` stands at `q` and the claims see `v`, it stands `n` micro-steps later at `q'` and they see
`v'`. -/
def LeadsTo (c : Config) (i : Instr) (q : Seq) (v : EngineView) (n : Nat) (q' : Seq) (v' : EngineView) : Prop :=
  ∀ s : State, s.cfg = c → HostAt s q → s.engineView = v → ∃ t, Arrives i n s t q' v'

theorem LeadsTo.trans {c : Config} {i : Instr} {m n : Nat} {q q' q'' : Seq} {v v' v'' : EngineView}
    (h : LeadsTo c i q v m q' v') (g : LeadsTo c i q' v' n q'' v'') : LeadsTo c i q v (n + m) q'' v'' := by
  intro s hc hs hv
  obtain ⟨t, ht⟩ := h s hc hs hv
  obtain ⟨u, hu⟩ := g t (ht.cfg.trans hc) ht.hostAt ht.view
  exact ⟨u, fun k => by rw [← Nat.add_assoc, ht.run, hu.run], hu.hostAt, hu.cfg.trans ht.cfg, hu.host.trans ht.host,
    hu.view⟩

/-- One micro-step that leaves the lock, the port and the health of the bus as they were. -/
theorem Arrives.of_exec {i : Instr} {s t : State} {q q' : Seq} {v : EngineView} (hs : HostAt s q)
    (h : exec i s = .next t) (hv : t.engineView = v) (hq : t.seq = q' := by rfl) (hc : t.cfg = s.cfg := by rfl)
    (hh : t.host = s.host := by rfl) (ho : t.lockOwner = s.lockOwner := by rfl)
    (hf : t.busFault = s.busFault := by rfl) (hx : t.busFails = s.busFails := by rfl) :
    ∃ t, Arrives i 1 s t q' v :=
  ⟨t, execTimes_step h,
    ⟨(congrArg (·.pos) hh).trans hs.pos, hq, ho.trans hs.owner, hf.trans hs.busFault, hx.trans hs.busFails⟩, hc, hh, hv⟩

/-- What follows a mode transition or a wait inside a command: it moves the sequencer and touches nothing the claims
see. -/
structure MovesTo (f : State → State) (q : Seq) : Prop where
  seq : ∀ t, (f t).seq = q
  view : ∀ t, (f t).engineView = t.engineView
  cfg : ∀ t, (f t).cfg = t.cfg
  host : ∀ t, (f t).host = t.host
  lockOwner : ∀ t, (f t).lockOwner = t.lockOwner
  busFault : ∀ t, (f t).busFault = t.busFault
  busFails : ∀ t, (f t).busFails = t.busFails

theorem goto_movesTo (m : Main) : MovesTo (·.goto m) ⟨m, .none⟩ :=
  ⟨fun _ => rfl, fun _ => rfl, fun _ => rfl, fun _ => rfl, fun _ => rfl, fun _ => rfl, fun _ => rfl⟩

theorem armWait_movesTo (m : Main) : MovesTo (·.armWait m) ⟨m, .none⟩ where
  seq := by simp
  view t := by
    unfold State.armWait
    split <;> rfl
  cfg := by simp
  host := by simp
  lockOwner := by simp
  busFault := by simp
  busFails := by simp

@[simp] theorem modeField_requestMode (v : EngineView) (c : Config) (target : ModeCode) :
    modeField ((v.requestMode c target).regs c.aOpmode) = target := by
  simp [EngineView.requestMode, EngineView.write]

@[simp] theorem modeField_setMode (v : EngineView) (c : Config) (target : ModeCode) :
    modeField ((v.setMode c target).regs c.aOpmode) = target := modeField_requestMode v c target

/-- The state after the read-back that shows the target of a mode transition (42_mode_controller.md R191). -/
def State.verified (s : State) (target : ModeCode) : State :=
  ({ s with modeShadow := target } : State).afterRead s.cfg.aOpmode

/-- The last read-back of a mode transition shows the target. -/
theorem State.verified_engineView {s : State} {c : Config} {v : EngineView} {target : ModeCode} (hc : s.cfg = c)
    (hv : s.engineView = v.requestMode c target) :
    s.devMode = target ∧ (s.verified target).engineView = v.setMode c target := by
  subst hc
  constructor
  · rw [← modeField_requestMode v s.cfg target, ← hv]
    rfl
  · rw [State.verified, State.engineView_afterRead, EngineView.setMode, ← hv]
    rfl

theorem OnlyDevice.hostAt {s t : State} {q : Seq} (h : OnlyDevice s t) (hs : HostAt s q) : HostAt t q := by
  obtain ⟨d, l, p, rfl⟩ := h
  exact ⟨hs.pos, hs.seq, hs.owner, hs.busFault, hs.busFails⟩

section
variable {c : Config} {v : EngineView} (hwf : c.wf = true)
include hwf

/-! ## Mode transitions and waits, in both commands -/

theorem ModeTransition.leadsToVerify {i : Instr} {m : Main} {target : ModeCode} {retry : Bool} {k : State → Micro}
    (h : ModeTransition i m target retry k) :
    LeadsTo c i ⟨m, .mRd⟩ v 2 ⟨m, .mVf⟩ (v.requestMode c target) := by
  rintro s rfl hs rfl
  have h₁ := h.read hs hwf
  have h₂ := h.write h₁.hostAt hwf
  refine ⟨_, fun k => (execTimes_step h₁.run (k + 1)).trans (execTimes_step h₂.run k), h₂.hostAt, rfl, rfl, ?_⟩
  rw [State.engineView_afterWrite, State.engineView_afterRead]
  rfl

/-- A mode transition after which the command goes on. -/
theorem ModeTransition.leadsTo {i : Instr} {m : Main} {target : ModeCode} {f : State → State} {q : Seq}
    (h : ModeTransition i m target true fun t => .cont (f t)) (hf : MovesTo f q) :
    LeadsTo c i ⟨m, .mRd⟩ v 3 q (v.setMode c target) := by
  refine (h.leadsToVerify hwf).trans (n := 1) ?_
  rintro s rfl hs hv
  obtain ⟨hd, hview⟩ := State.verified_engineView rfl hv
  exact Arrives.of_exec hs (h.continues hs hwf hd rfl) ((hf.view _).trans hview) (hf.seq _) (hf.cfg _) (hf.host _)
    (hf.lockOwner _) (hf.busFault _) (hf.busFails _)

/-- A poll that shows the flag (43_packet_engine.md R213). -/
theorem CompletionWait.leadsTo {i : Instr} {w next : Main} {bit : Byte} {timeout : Err}
    (h : CompletionWait i w next bit timeout) (hm : c.completionMode = .poll) (hb : v.regs c.aIrqFlags &&& bit ≠ 0) :
    LeadsTo c i ⟨w, .none⟩ v 1 ⟨next, .none⟩ (v.waited c) := by
  rintro s rfl hs rfl
  have hrun := exec_of_body_cont h.envelope hs
    ((h.body s hs.seq).trans ((waitStep_poll hs.ready hwf hm).trans (if_pos hb)))
  exact Arrives.of_exec hs hrun State.engineView_afterRead

/-- Standby forced where it is needed, in a command that makes the transition at main step `m` (R218). -/
theorem ModeTransition.leadsToStandby {i : Instr} {m next : Main}
    (h : ModeTransition i m modeStdby true fun t => .cont (t.goto next))
    (hb : ∀ s : State, s.seq = ⟨m, .none⟩ → (envelopeOf s.cfg i).body s = .cont (ensureStandby m next s)) :
    LeadsTo c i ⟨m, .none⟩ v (if v.shadow = modeStdby then 1 else 4) ⟨next, .none⟩ (v.ensureStandby c) := by
  unfold EngineView.ensureStandby
  split
  · next hv =>
    rintro s rfl hs rfl
    have hbody := (hb s hs.seq).trans (congrArg Micro.cont (if_pos hv))
    exact Arrives.of_exec hs (exec_of_body_cont h.envelope hs hbody) rfl
  · next hv =>
    refine LeadsTo.trans (m := 1) (n := 3) (q' := ⟨m, .mRd⟩) ?_ (h.leadsTo hwf (goto_movesTo next))
    rintro s rfl hs rfl
    have hbody := (hb s hs.seq).trans (congrArg Micro.cont (if_neg hv))
    exact Arrives.of_exec hs (exec_of_body_cont h.envelope hs hbody) rfl

end

/-! ## The micro-steps of the transmit procedure (43_packet_engine.md R212) -/

section
variable {c : Config} {v : EngineView} (hwf : c.wf = true) (len : BitVec 16)

theorem transmit_loadPayload (hp : v.ptr c < c.fifoSize) :
    LeadsTo c (.transmit len) ⟨.tFifo, .none⟩ v 1 ⟨.tLen, .none⟩ (v.fifoWrite c (v.buf.take v.len.toNat)) := by
  rintro s rfl hs rfl
  have h : peTransmit s = .cont ((s.afterFifoWrite s.payload).goto .tLen) := by
    simp only [peTransmit, hs.seq, busWrite_fifo hs.ready hp]
    rfl
  exact Arrives.of_exec hs (exec_transmit_cont len hs h) (s.engineView_afterFifoWrite s.payload) rfl
    (by simp) (by simp) (by simp) (by simp) (by simp)

include hwf

theorem transmit_readBase :
    LeadsTo c (.transmit len) ⟨.tBase, .none⟩ v 1 ⟨.tPtr, .none⟩
      { v.read c.aFifoTxBase with tmp := v.regs c.aFifoTxBase } := by
  rintro s rfl hs rfl
  have h : peTransmit s = .cont ({ s.afterRead s.cfg.aFifoTxBase with
      pe := { s.pe with tmp := s.devReg s.cfg.aFifoTxBase } }.goto .tPtr) := by
    simp only [peTransmit, hs.seq]
    exact readReg_stored hs.ready (reads_aFifoTxBase hwf) _
  exact Arrives.of_exec hs (exec_transmit_cont len hs h) State.engineView_afterRead

theorem transmit_writePointer :
    LeadsTo c (.transmit len) ⟨.tPtr, .none⟩ v 1 ⟨.tFifo, .none⟩ (v.write c.aFifoAddrPtr v.tmp) := by
  rintro s rfl hs rfl
  have h : peTransmit s = .cont ((s.afterWrite s.cfg.aFifoAddrPtr s.pe.tmp).goto .tFifo) := by
    simp only [peTransmit, hs.seq]
    exact writeReg_plain hs.ready (Config.plain_aFifoAddrPtr hwf) _ _
  exact Arrives.of_exec hs (exec_transmit_cont len hs h) State.engineView_afterWrite

theorem transmit_writeLength :
    LeadsTo c (.transmit len) ⟨.tLen, .none⟩ v 1 ⟨.tClr, .none⟩ (v.write c.aPayloadLength v.len) := by
  rintro s rfl hs rfl
  have h : peTransmit s = .cont ((s.afterWrite s.cfg.aPayloadLength s.pe.len).goto .tClr) := by
    simp only [peTransmit, hs.seq]
    exact writeReg_plain hs.ready (Config.plain_aPayloadLength hwf) _ _
  exact Arrives.of_exec hs (exec_transmit_cont len hs h) State.engineView_afterWrite

theorem transmit_clearFlag :
    LeadsTo c (.transmit len) ⟨.tClr, .none⟩ v 1 ⟨.tMode, .mRd⟩ (v.clear c flagTxDone) := by
  rintro s rfl hs rfl
  obtain ⟨t, ht, hc⟩ := peTransmit_clear hs hwf
  exact Arrives.of_exec hs (exec_transmit_cont len hs ht) hc.engineView rfl hc.cfg hc.host hc.lockOwner hc.busFault
    hc.busFails

theorem transmit_acknowledge :
    LeadsTo c (.transmit len) ⟨.tAck, .none⟩ v 1 ⟨.tStby, .mRd⟩ (v.clear c flagTxDone) := by
  rintro s rfl hs rfl
  obtain ⟨t, ht, hc⟩ := writeReg_flagsCleared hs.ready hwf flagTxDone fun t => .cont (t.callSetMode .tStby)
  have h : peTransmit s = .cont (t.callSetMode .tStby) := by simp only [peTransmit, hs.seq, ht]
  exact Arrives.of_exec hs (exec_transmit_cont len hs h) hc.engineView rfl hc.cfg hc.host hc.lockOwner hc.busFault
    hc.busFails

end

/-! ## TRANSMIT run alone -/

namespace EngineView

/-- The operating-mode byte once the device is in Standby (43_packet_engine.md R218). -/
def standbyByte (v : EngineView) (c : Config) : Byte :=
  if v.shadow = modeStdby then v.regs c.aOpmode else withMode (v.regs c.aOpmode) modeStdby

/-- The transactions that force Standby (R218). -/
def standbyLog (v : EngineView) (c : Config) : List (BusKind × Addr × List Byte) :=
  if v.shadow = modeStdby then []
  else [(.rd, c.aOpmode, [v.regs c.aOpmode]), (.wr, c.aOpmode, [v.standbyByte c]), (.rd, c.aOpmode, [v.standbyByte c])]

theorem ensureStandby_eq (v : EngineView) (c : Config) :
    v.ensureStandby c = { v with
      shadow := modeStdby
      regs := Function.update v.regs c.aOpmode (v.standbyByte c)
      log := v.log ++ v.standbyLog c } := by
  unfold ensureStandby standbyLog standbyByte
  split
  · next h => simp [← h]
  · simp [setMode, requestMode, read, write]

/-- The transmit procedure up to its wait (R212). -/
def transmitted (v : EngineView) (c : Config) : EngineView :=
  ((((({ (v.ensureStandby c).read c.aFifoTxBase with tmp := v.regs c.aFifoTxBase } : EngineView).write c.aFifoAddrPtr
    (v.regs c.aFifoTxBase)).fifoWrite c (v.buf.take v.len.toNat)).write c.aPayloadLength v.len).clear c
    flagTxDone).setMode c modeTx

/-- The registers after the device has raised TX-done (60_exceptions.md R284). -/
def txFlagged (v : EngineView) (c : Config) : Addr → Byte :=
  Function.update v.regs c.aIrqFlags (v.regs c.aIrqFlags ||| flagTxDone)

/-- The device has sent the packet (R284). -/
def txDone (v : EngineView) (c : Config) : EngineView :=
  { v with
    regs :=
      if c.devTxAutoStandby then
        Function.update (v.txFlagged c) c.aOpmode (withMode (v.txFlagged c c.aOpmode) modeStdby)
      else v.txFlagged c }

/-- The transmit procedure after its wait, and the return to Standby (R212). -/
def acknowledged (v : EngineView) (c : Config) : EngineView :=
  (v.waited c).closed c flagTxDone

end EngineView

section
variable {c : Config} {v : EngineView} (hwf : c.wf = true) (len : BitVec 16)
include hwf

theorem transmit_transmits (hp : (v.regs c.aFifoTxBase).toNat < c.fifoSize) :
    LeadsTo c (.transmit len) ⟨.tEns, .none⟩ v ((if v.shadow = modeStdby then 1 else 4) + 8) ⟨.tWait, .none⟩
      (v.transmitted c) := by
  have hbase : (v.ensureStandby c).regs c.aFifoTxBase = v.regs c.aFifoTxBase := by
    rw [v.ensureStandby_eq]
    exact Function.update_of_ne (Config.named_ne hwf 7 1 (by decide)) _ _
  have h₁ := ((transmit_toStandby len).leadsToStandby (v := v) hwf fun s hq => by
    show (peTransmit s).onDone _ = _
    simp only [peTransmit, hq]
    rfl).trans (transmit_readBase hwf len)
  rw [hbase] at h₁
  have h₂ := h₁.trans (transmit_writePointer hwf len)
  have h₃ := h₂.trans (transmit_loadPayload len (by simpa [EngineView.ptr, EngineView.write] using hp))
  have h₄ := ((h₃.trans (transmit_writeLength hwf len)).trans (transmit_clearFlag hwf len)).trans
    ((transmit_toTransmit len).leadsTo hwf (armWait_movesTo .tWait))
  have hn : (if v.shadow = modeStdby then 1 else 4) + 8 =
      3 + (1 + (1 + (1 + (1 + (1 + if v.shadow = modeStdby then 1 else 4))))) := by omega
  rw [hn]
  have hkeeps : (v.ensureStandby c).len = v.len ∧ (v.ensureStandby c).buf = v.buf := by
    rw [v.ensureStandby_eq]
    exact ⟨rfl, rfl⟩
  unfold EngineView.transmitted
  rw [← hkeeps.1, ← hkeeps.2]
  exact h₄

end

/-- After the wait the procedure runs on to its last read-back. -/
theorem transmit_acknowledges {c : Config} {v : EngineView} (hwf : c.wf = true) (len : BitVec 16)
    (hm : c.completionMode = .poll) (hf : v.regs c.aIrqFlags &&& flagTxDone ≠ 0) :
    LeadsTo c (.transmit len) ⟨.tWait, .none⟩ v 4 ⟨.tStby, .mVf⟩
      (((v.waited c).clear c flagTxDone).requestMode c modeStdby) :=
  (((transmit_wait len).leadsTo hwf hm hf).trans (transmit_acknowledge hwf len)).trans
    ((transmit_backToStandby len).leadsToVerify hwf)

theorem devTxDone_engineView {s : State} (hm : s.devMode = modeTx) :
    (devTxDone s).engineView = s.engineView.txDone s.cfg := by
  have hview : (s.raiseFlags flagTxDone).engineView = { s.engineView with regs := s.engineView.txFlagged s.cfg } :=
    s.engineView_setFlags _
  have hreg : (s.raiseFlags flagTxDone).devReg = s.engineView.txFlagged s.cfg := congrArg EngineView.regs hview
  have hcfg : (s.raiseFlags flagTxDone).cfg = s.cfg := by simp
  dsimp only [devTxDone, EngineView.txDone]
  rw [if_pos hm, hcfg, hreg]
  split
  · rw [State.engineView_putReg, hview]
  · exact hview

/-- The poll after TX-done shows it. -/
theorem txDone_shows {c : Config} (hwf : c.wf = true) (v : EngineView) :
    (v.txDone c).regs c.aIrqFlags &&& flagTxDone ≠ 0 := by
  have hirq : (v.txDone c).regs c.aIrqFlags = v.regs c.aIrqFlags ||| flagTxDone := by
    have hne := Config.named_ne hwf 10 1 (by decide)
    dsimp only [EngineView.txDone]
    split
    · exact (Function.update_of_ne hne _ _).trans (Function.update_self ..)
    · exact Function.update_self ..
  rw [hirq]
  generalize v.regs c.aIrqFlags = b
  revert b
  decide

/-- TRANSMIT run alone, with the device raising TX-done before the first poll. -/
structure TransmitRun (len : BitVec 16) (s t u : State) (v : EngineView) : Prop where
  sends : execTimes ((if s.modeShadow = modeStdby then 1 else 4) + 10) (.transmit len) s = .next t
  hostAt : HostAt t ⟨.tWait, .none⟩
  cfg : t.cfg = s.cfg
  view : t.engineView = v.transmitted s.cfg
  mode : t.devMode = modeTx
  ends : execTimes 5 (.transmit len) (devTxDone t) = .next (u.endedOk (len.setWidth 32))
  cfg' : u.cfg = s.cfg
  view' : u.engineView = ((v.transmitted s.cfg).txDone s.cfg).acknowledged s.cfg

theorem transmit_runs {s : State} (len : BitVec 16) (hwf : s.cfg.wf = true) (hs : HostFresh s)
    (hm : s.cfg.completionMode = .poll) (hlen : argCheck s.cfg (.transmit len) = none)
    (hb : (s.devReg s.cfg.aFifoTxBase).toNat < s.cfg.fifoSize) :
    ∃ t u, TransmitRun len s t u (s.bodyStart (.transmit len)).engineView := by
  obtain ⟨t, ht⟩ := transmit_transmits hwf len (v := (s.bodyStart (.transmit len)).engineView) hb
    (s.bodyStart (.transmit len)) rfl (hs.bodyStart (.transmit len)) rfl
  have hcfg : t.cfg = s.cfg := ht.cfg
  have hmode : t.devMode = modeTx := by
    show modeField (t.engineView.regs t.cfg.aOpmode) = modeTx
    rw [ht.view, hcfg]
    exact modeField_setMode ..
  have hd := devTxDone_onlyDevice t
  have hdcfg : (devTxDone t).cfg = s.cfg := by
    obtain ⟨d, l, p, h⟩ := hd
    rw [h, ← hcfg]
  have hdview : (devTxDone t).engineView = t.engineView.txDone s.cfg := hcfg ▸ devTxDone_engineView hmode
  obtain ⟨w, hw⟩ := transmit_acknowledges hwf len hm (txDone_shows hwf t.engineView) (devTxDone t) hdcfg
    (hd.hostAt ht.hostAt) hdview
  have hwcfg : w.cfg = s.cfg := hw.cfg.trans hdcfg
  obtain ⟨hok, hview⟩ := State.verified_engineView hwcfg hw.view
  have hret := (transmit_backToStandby len).returns hw.hostAt (hwcfg ▸ hwf) hok rfl
  refine ⟨t, _, ?_, ht.hostAt, hcfg, ht.view, hmode, (hw.run 1).trans (execTimes_step hret 0), hwcfg, ?_⟩
  · exact (execTimes_bodyStart rfl hlen hs _).trans ht.runs
  · rw [← ht.view]
    exact hview

/-! ## What TRANSMIT leaves -/

/-- The last of several transitions decides the mode field; all keep bits 7:3 (42_mode_controller.md R191). -/
@[simp] theorem withMode_withMode (b : Byte) (m m' : ModeCode) : withMode (withMode b m) m' = withMode b m' := by
  apply BitVec.eq_of_getLsbD_eq
  intro j hj
  rw [getLsbD_withMode _ _ hj, getLsbD_withMode _ _ hj, getLsbD_withMode _ _ hj]
  split <;> rfl

section
variable {c : Config} (hwf : c.wf = true) (v : EngineView)
include hwf

theorem transmitted_opmode : (v.transmitted c).regs c.aOpmode = withMode (v.standbyByte c) modeTx := by
  have h₁ : c.aOpmode ≠ c.aIrqFlags := Config.named_ne hwf 1 10 (by decide)
  have h₂ : c.aOpmode ≠ c.aPayloadLength := Config.named_ne hwf 1 16 (by decide)
  have h₃ : c.aOpmode ≠ c.aFifoAddrPtr := Config.named_ne hwf 1 6 (by decide)
  simp [EngineView.transmitted, EngineView.requestMode, v.ensureStandby_eq, h₁, h₂, h₃]

theorem transmitted_flags : (v.transmitted c).regs c.aIrqFlags = v.regs c.aIrqFlags &&& ~~~flagTxDone := by
  have h₁ : c.aIrqFlags ≠ c.aOpmode := Config.named_ne hwf 10 1 (by decide)
  have h₂ : c.aIrqFlags ≠ c.aPayloadLength := Config.named_ne hwf 10 16 (by decide)
  have h₃ : c.aIrqFlags ≠ c.aFifoAddrPtr := Config.named_ne hwf 10 6 (by decide)
  simp [EngineView.transmitted, EngineView.requestMode, v.ensureStandby_eq, h₁, h₂, h₃]

theorem transmitted_length : (v.transmitted c).regs c.aPayloadLength = v.len := by
  have h₁ : c.aPayloadLength ≠ c.aOpmode := Config.named_ne hwf 16 1 (by decide)
  have h₂ : c.aPayloadLength ≠ c.aIrqFlags := Config.named_ne hwf 16 10 (by decide)
  simp [EngineView.transmitted, EngineView.requestMode, v.ensureStandby_eq, h₁, h₂]

theorem transmitted_ptr :
    (v.transmitted c).regs c.aFifoAddrPtr =
      BitVec.ofNat 8 (((v.regs c.aFifoTxBase).toNat + (v.buf.take v.len.toNat).length) % c.fifoSize) := by
  have h₁ : c.aFifoAddrPtr ≠ c.aOpmode := Config.named_ne hwf 6 1 (by decide)
  have h₂ : c.aFifoAddrPtr ≠ c.aIrqFlags := Config.named_ne hwf 6 10 (by decide)
  have h₃ : c.aFifoAddrPtr ≠ c.aPayloadLength := Config.named_ne hwf 6 16 (by decide)
  simp [EngineView.transmitted, EngineView.requestMode, EngineView.ptr, v.ensureStandby_eq, h₁, h₂, h₃]

omit hwf in
theorem transmitted_other {a : Addr} (ha : a ∉ [c.aOpmode, c.aIrqFlags, c.aPayloadLength, c.aFifoAddrPtr]) :
    (v.transmitted c).regs a = v.regs a := by
  simp only [List.mem_cons, List.not_mem_nil, or_false, not_or] at ha
  simp [EngineView.transmitted, EngineView.requestMode, v.ensureStandby_eq, ha]

theorem transmitted_log :
    (v.transmitted c).log = v.log ++ (v.standbyLog c ++
      [(.rd, c.aFifoTxBase, [v.regs c.aFifoTxBase]), (.wr, c.aFifoAddrPtr, [v.regs c.aFifoTxBase]),
       (.wr, c.aFifo, v.buf.take v.len.toNat), (.wr, c.aPayloadLength, [v.len]), (.wr, c.aIrqFlags, [flagTxDone]),
       (.rd, c.aOpmode, [v.standbyByte c]), (.wr, c.aOpmode, [withMode (v.standbyByte c) modeTx]),
       (.rd, c.aOpmode, [withMode (v.standbyByte c) modeTx])]) := by
  have h₁ : c.aOpmode ≠ c.aIrqFlags := Config.named_ne hwf 1 10 (by decide)
  have h₂ : c.aOpmode ≠ c.aPayloadLength := Config.named_ne hwf 1 16 (by decide)
  have h₃ : c.aOpmode ≠ c.aFifoAddrPtr := Config.named_ne hwf 1 6 (by decide)
  have h₄ : c.aFifoTxBase ≠ c.aOpmode := Config.named_ne hwf 7 1 (by decide)
  simp [EngineView.transmitted, EngineView.requestMode, v.ensureStandby_eq, Function.update_apply,
    h₁, h₂, h₃, h₄]

omit hwf in
theorem transmitted_fifo :
    (v.transmitted c).fifo =
      fifoWrite c.fifoSize v.fifo (v.regs c.aFifoTxBase).toNat (v.buf.take v.len.toNat) := by
  simp [EngineView.transmitted, EngineView.requestMode, v.ensureStandby_eq, EngineView.ptr]

/-- The operating mode once the device has sent the packet. -/
def EngineView.sentByte (v : EngineView) (c : Config) : Byte :=
  if c.devTxAutoStandby then withMode (v.regs c.aOpmode) modeStdby else v.regs c.aOpmode

theorem txDone_regs (a : Addr) :
    (v.txDone c).regs a =
      if a = c.aOpmode then v.sentByte c
      else if a = c.aIrqFlags then v.regs c.aIrqFlags ||| flagTxDone
      else v.regs a := by
  have h : c.aOpmode ≠ c.aIrqFlags := Config.named_ne hwf 1 10 (by decide)
  unfold EngineView.txDone EngineView.txFlagged EngineView.sentByte
  split <;> simp only [Function.update_apply, h, if_false]
  grind

theorem closed_regs (b : Byte) (a : Addr) :
    (v.closed c b).regs a =
      if a = c.aOpmode then withMode (v.regs c.aOpmode) modeStdby
      else if a = c.aIrqFlags then v.regs c.aIrqFlags &&& ~~~b
      else v.regs a := by
  have h : c.aOpmode ≠ c.aIrqFlags := Config.named_ne hwf 1 10 (by decide)
  simp [EngineView.closed, EngineView.requestMode, Function.update_apply, h]

theorem closed_opmode (b : Byte) : (v.closed c b).regs c.aOpmode = withMode (v.regs c.aOpmode) modeStdby :=
  (closed_regs hwf v b _).trans (if_pos rfl)

theorem closed_flags (b : Byte) : (v.closed c b).regs c.aIrqFlags = v.regs c.aIrqFlags &&& ~~~b :=
  (closed_regs hwf v b _).trans ((if_neg (Config.named_ne hwf 10 1 (by decide))).trans (if_pos rfl))

theorem closed_log (b : Byte) :
    (v.closed c b).log = v.log ++
      [(.wr, c.aIrqFlags, [b]), (.rd, c.aOpmode, [v.regs c.aOpmode]),
       (.wr, c.aOpmode, [withMode (v.regs c.aOpmode) modeStdby]),
       (.rd, c.aOpmode, [withMode (v.regs c.aOpmode) modeStdby])] := by
  have h : c.aOpmode ≠ c.aIrqFlags := Config.named_ne hwf 1 10 (by decide)
  simp [EngineView.closed, EngineView.requestMode, h]

theorem acknowledged_regs (a : Addr) :
    (v.acknowledged c).regs a =
      if a = c.aOpmode then withMode (v.regs c.aOpmode) modeStdby
      else if a = c.aIrqFlags then v.regs c.aIrqFlags &&& ~~~flagTxDone
      else v.regs a :=
  closed_regs hwf (v.waited c) flagTxDone a

theorem acknowledged_log :
    (v.acknowledged c).log = v.log ++
      [(.rd, c.aIrqFlags, [v.regs c.aIrqFlags]), (.wr, c.aIrqFlags, [flagTxDone]),
       (.rd, c.aOpmode, [v.regs c.aOpmode]), (.wr, c.aOpmode, [withMode (v.regs c.aOpmode) modeStdby]),
       (.rd, c.aOpmode, [withMode (v.regs c.aOpmode) modeStdby])] :=
  (closed_log hwf (v.waited c) flagTxDone).trans (List.append_assoc ..)

theorem sentByte_transmitted :
    (v.transmitted c).sentByte c =
      if c.devTxAutoStandby then withMode (v.standbyByte c) modeStdby else withMode (v.standbyByte c) modeTx := by
  unfold EngineView.sentByte
  rw [transmitted_opmode hwf, withMode_withMode]

omit hwf in
@[simp] theorem withMode_sentByte (m : ModeCode) : withMode (v.sentByte c) m = withMode (v.regs c.aOpmode) m := by
  unfold EngineView.sentByte
  split
  · exact withMode_withMode ..
  · rfl

theorem transmitRun_opmode :
    (((v.transmitted c).txDone c).acknowledged c).regs c.aOpmode = withMode (v.standbyByte c) modeStdby := by
  rw [acknowledged_regs hwf, txDone_regs hwf, if_pos rfl, if_pos rfl, withMode_sentByte, transmitted_opmode hwf,
    withMode_withMode]

/-- The flag that the device raises is cleared again, and the rest stays as the procedure left it before its wait. -/
theorem transmitRun_other {a : Addr} (ha : a ≠ c.aOpmode) :
    (((v.transmitted c).txDone c).acknowledged c).regs a = (v.transmitted c).regs a := by
  have hcleared : ∀ f : Byte, ((f &&& ~~~flagTxDone) ||| flagTxDone) &&& ~~~flagTxDone = f &&& ~~~flagTxDone := by
    decide
  rw [acknowledged_regs hwf, if_neg ha]
  split
  · next h => rw [h, txDone_regs hwf, if_neg (h ▸ ha), if_pos rfl, transmitted_flags hwf, hcleared]
  · next h => rw [txDone_regs hwf, if_neg ha, if_neg h]

theorem transmitRun_log :
    (((v.transmitted c).txDone c).acknowledged c).log = v.log ++ (v.standbyLog c ++
      [(.rd, c.aFifoTxBase, [v.regs c.aFifoTxBase]), (.wr, c.aFifoAddrPtr, [v.regs c.aFifoTxBase]),
       (.wr, c.aFifo, v.buf.take v.len.toNat), (.wr, c.aPayloadLength, [v.len]), (.wr, c.aIrqFlags, [flagTxDone]),
       (.rd, c.aOpmode, [v.standbyByte c]), (.wr, c.aOpmode, [withMode (v.standbyByte c) modeTx]),
       (.rd, c.aOpmode, [withMode (v.standbyByte c) modeTx]),
       (.rd, c.aIrqFlags, [v.regs c.aIrqFlags ||| flagTxDone]), (.wr, c.aIrqFlags, [flagTxDone]),
       (.rd, c.aOpmode, [if c.devTxAutoStandby then withMode (v.standbyByte c) modeStdby
         else withMode (v.standbyByte c) modeTx]),
       (.wr, c.aOpmode, [withMode (v.standbyByte c) modeStdby]),
       (.rd, c.aOpmode, [withMode (v.standbyByte c) modeStdby])]) := by
  have hset : ∀ f : Byte, (f &&& ~~~flagTxDone) ||| flagTxDone = f ||| flagTxDone := by decide
  have hlog : ((v.transmitted c).txDone c).log = _ := transmitted_log hwf v
  have hne : c.aIrqFlags ≠ c.aOpmode := Config.named_ne hwf 10 1 (by decide)
  simp only [acknowledged_log hwf, hlog, txDone_regs hwf, if_true, if_neg hne, transmitted_flags hwf, hset,
    withMode_sentByte, transmitted_opmode hwf, withMode_withMode, List.append_assoc]
  rw [sentByte_transmitted hwf]
  rfl

end

theorem Config.maxPayload_le {c : Config} (h : c.wf = true) : c.maxPayload ≤ 255 := by
  simp only [Config.wf, Config.maxPayloadOk, Bool.and_eq_true, decide_eq_true_eq] at h
  tauto

/-- The payload copied from `hbuf` is what the FIFO is loaded with (20_memory.md R85). -/
theorem transmit_payload {s : State} {len : BitVec 16} (hl : s.host.hbuf.length = 255) (hn : len.toNat ≤ 255) :
    (s.bodyStart (.transmit len)).payload = s.host.hbuf.take len.toNat := by
  have hlen : (len.setWidth 8).toNat = len.toNat := by
    rw [BitVec.toNat_setWidth]
    exact Nat.mod_eq_of_lt (by omega)
  show (overlay s.pe.buf (s.host.hbuf.take len.toNat)).take (len.setWidth 8).toNat = _
  rw [hlen, overlay]
  exact List.take_left' (List.length_take_of_le (by omega))

/-- The records appended since a state, as the claims write them. -/
theorem State.log_since {s t : State} {l : List (BusKind × Addr × List Byte)}
    (h : t.engineView.log = s.engineView.log ++ l) :
    (t.trace.drop s.trace.length).map (fun r => (r.kind, r.addr, r.data)) = l := by
  have h : t.trace.map TraceRec.entry = s.trace.map TraceRec.entry ++ l := h
  rw [List.map_drop]
  exact (congrArg (List.drop s.trace.length) h).trans
    (List.drop_left' (List.length_map ..))

/-- The lengths of a stretch that starts with forcing Standby (43_packet_engine.md R218). -/
theorem standby_stretch (mode : ModeCode) (n : Nat) :
    (if mode = 1 then 1 + n else 4 + n) = (if mode = modeStdby then 1 else 4) + n :=
  (apply_ite (· + n) (mode = modeStdby) 1 4).symm

section
variable (s : State) {v : EngineView} {m : Byte}
  (hm : m = (if s.modeShadow = 1 then s.devReg s.cfg.aOpmode else s.devReg s.cfg.aOpmode &&& 0xF8 ||| 1))
include hm

/-- The mode byte in Standby and the transactions that force it, as the claims write them (R218). -/
theorem State.standby_eq (hs : v.shadow = s.modeShadow) (hr : v.regs = s.devReg) :
    v.standbyByte s.cfg = m ∧ v.standbyLog s.cfg = if s.modeShadow = 1 then [] else
      [(.rd, s.cfg.aOpmode, [s.devReg s.cfg.aOpmode]), (.wr, s.cfg.aOpmode, [m]), (.rd, s.cfg.aOpmode, [m])] := by
  subst hm
  unfold EngineView.standbyLog EngineView.standbyByte
  rw [hs, hr]
  exact ⟨rfl, rfl⟩

/-- Whether Standby had to be forced does not show in the byte a later transition writes. -/
theorem State.withMode_standby (target : ModeCode) : withMode m target = withMode (s.devReg s.cfg.aOpmode) target := by
  subst hm
  split
  · rfl
  · exact withMode_withMode _ modeStdby target

end

/-- Settles O33: the procedure runs to its wait, the device sends, and the rest runs to the last read-back. -/
theorem transmitDelivers : Obligations.TransmitDelivers := by
  unfold Obligations.TransmitDelivers
  intro s len m b hwf hs hm hbuf hlen₁ hlen₂ hb hfit hmdef
  have hmax := Config.maxPayload_le hwf
  have hcheck : argCheck s.cfg (.transmit len) = none := if_neg (by omega)
  obtain ⟨t, u, h⟩ := transmit_runs len hwf hs hm hcheck (hb ▸ hfit)
  have hpay := transmit_payload (s := s) hbuf (hlen₂.trans hmax)
  obtain ⟨hmode, hstby⟩ := s.standby_eq (v := (s.bodyStart (.transmit len)).engineView) hmdef rfl rfl
  generalize hv : (s.bodyStart (.transmit len)).engineView = v at h hmode hstby
  have hbase : v.regs s.cfg.aFifoTxBase = b := by rw [hb, ← hv]; rfl
  have hlen : v.len = len.setWidth 8 := by rw [← hv]; rfl
  have hdata : v.buf.take v.len.toNat = s.host.hbuf.take len.toNat := by rw [← hpay, ← hv]; rfl
  have hpaylen : (s.host.hbuf.take len.toNat).length = len.toNat := List.length_take_of_le (by omega)
  have hreg : ∀ a, a ≠ s.cfg.aOpmode → u.devReg a = (v.transmitted s.cfg).regs a := fun a ha =>
    (State.devReg_of_engineView h.view' a).trans (transmitRun_other hwf v ha)
  have hfifo := (congrArg EngineView.fifo h.view').trans (transmitted_fifo (c := s.cfg) v)
  rw [hbase, hdata] at hfifo
  refine ⟨t, _, standby_stretch _ 10 ▸ h.sends, h.mode, congrArg EngineView.shadow h.view, h.hostAt.owner, h.ends, rfl,
    rfl, rfl, rfl, rfl, congrArg EngineView.shadow h.view', ?_, ?_, ?_, ?_, ?_, ?_, ?_, ?_⟩
  · exact (State.devReg_of_engineView h.view' _).trans ((transmitRun_opmode hwf v).trans (hmode ▸ rfl))
  · show u.devReg u.cfg.aIrqFlags = _
    rw [h.cfg']
    refine (hreg _ (Config.named_ne hwf 10 1 (by decide))).trans ((transmitted_flags hwf v).trans ?_)
    rw [← hv]
    rfl
  · exact (hreg _ (Config.named_ne hwf 16 1 (by decide))).trans ((transmitted_length hwf v).trans hlen)
  · refine (hreg _ (Config.named_ne hwf 6 1 (by decide))).trans ((transmitted_ptr hwf v).trans ?_)
    rw [hbase, hdata, hpaylen]
  · intro a ha
    refine (hreg a fun e => ha (e ▸ List.mem_cons_self)).trans ((transmitted_other v ha).trans ?_)
    rw [← hv]
    rfl
  · intro k hk hlast
    have hcell := fifoWrite_last (s.host.hbuf.take len.toNat) v.fifo hfit (hpaylen.symm ▸ hk) fun j hj hjl =>
      hlast j hj (hpaylen ▸ hjl)
    rw [← hfifo, List.getElem_take] at hcell
    exact (List.getElem?_eq_getElem (by omega)).trans (congrArg some hcell.symm)
  · intro cell hcell
    have hother := fifoWrite_other (s.host.hbuf.take len.toNat) v.fifo hfit fun j hj => hcell j (hpaylen ▸ hj)
    rw [← hfifo, ← hv] at hother
    exact hother
  · have hlog := (congrArg EngineView.log h.view').trans (transmitRun_log hwf v)
    rw [hbase, hmode, hdata, hlen, hstby, ← hv] at hlog
    refine (State.log_since (s := s) hlog).trans ?_
    cases s.cfg.devTxAutoStandby <;> rfl

end Sys2Proof.Machine
end

section
namespace Sys2Proof.Machine

/-! RECEIVE run alone, with a packet arriving before the first poll (43_packet_engine.md R215 to R218). -/

/-! ## The micro-steps of the receive procedure (R216, R217) -/

namespace EngineView

/-- The flags read by the wait show a CRC error (R217). -/
def crcBad (v : EngineView) : Bool := v.flags &&& flagCrcErr != 0

/-- What R_ACK writes to the flags (R216, R217). -/
def ackByte (v : EngineView) : Byte := if v.crcBad then flagRxDone ||| flagCrcErr else flagRxDone

/-- An empty packet moves nothing. -/
theorem fifoRead_zero {v : EngineView} {c : Config} (hp : v.ptr c < c.fifoSize) : v.fifoRead c 0 = v := by
  have hptr : BitVec.ofNat 8 (v.ptr c % c.fifoSize) = v.regs c.aFifoAddrPtr := by
    rw [Nat.mod_eq_of_lt hp, ptr, BitVec.ofNat_toNat, BitVec.setWidth_eq]
  simp [fifoRead, advance, hptr, fifoBytes, Machine.fifoRead, overlay]

end EngineView

section
variable {c : Config} {v : EngineView}

theorem receive_checkCrc :
    LeadsTo c .receive ⟨.rCrc, .none⟩ v 1 ⟨if v.crcBad then .rAck else .rNb, .none⟩ v := by
  rintro s rfl hs rfl
  have h : peReceive s = .cont (s.goto (if s.crcBad then .rAck else .rNb)) := by simp only [peReceive, hs.seq]
  exact Arrives.of_exec hs (exec_receive_cont hs h) rfl

theorem receive_readPayload (hp : v.ptr c < c.fifoSize) :
    LeadsTo c .receive ⟨.rFifo, .none⟩ v 1 ⟨.rAck, .none⟩ (v.fifoRead c v.len.toNat) := by
  rintro s rfl hs rfl
  by_cases hn : s.pe.len = 0
  · have h : peReceive s = .cont (s.goto .rAck) := by
      simp only [peReceive, hs.seq]
      exact if_pos hn
    have hview : s.engineView.fifoRead s.cfg s.engineView.len.toNat = s.engineView := by
      rw [show s.engineView.len.toNat = 0 from congrArg BitVec.toNat hn, EngineView.fifoRead_zero hp]
    exact Arrives.of_exec hs (exec_receive_cont hs h) hview.symm
  · have h : peReceive s = .cont ({ s.afterFifoRead s.pe.len.toNat with
        pe := { s.pe with buf := overlay s.pe.buf ((List.range s.pe.len.toNat).map fun k => s.devFifo (s.fifoCell k)) }
        seq := ⟨.rAck, .none⟩ }) := by
      simp only [peReceive, hs.seq]
      rw [if_neg hn, busRead_fifo hs.ready hp]
      rfl
    have hn' : s.pe.len.toNat ≠ 0 := fun e => hn (BitVec.eq_of_toNat_eq e)
    exact Arrives.of_exec hs (exec_receive_cont hs h) (State.engineView_afterFifoRead hp hn')

variable (hwf : c.wf = true)
include hwf

theorem receive_readLength :
    LeadsTo c .receive ⟨.rNb, .none⟩ v 1 ⟨.rCur, .none⟩ { v.read c.aRxNbBytes with len := v.regs c.aRxNbBytes } := by
  rintro s rfl hs rfl
  have h : peReceive s = .cont ({ s.afterRead s.cfg.aRxNbBytes with
      pe := { s.pe with len := s.devReg s.cfg.aRxNbBytes } }.goto .rCur) := by
    simp only [peReceive, hs.seq]
    exact readReg_stored hs.ready (reads_aRxNbBytes hwf) _
  exact Arrives.of_exec hs (exec_receive_cont hs h) State.engineView_afterRead

theorem receive_readAddress :
    LeadsTo c .receive ⟨.rCur, .none⟩ v 1 ⟨.rPtr, .none⟩
      { v.read c.aFifoRxCurrent with tmp := v.regs c.aFifoRxCurrent } := by
  rintro s rfl hs rfl
  have h : peReceive s = .cont ({ s.afterRead s.cfg.aFifoRxCurrent with
      pe := { s.pe with tmp := s.devReg s.cfg.aFifoRxCurrent } }.goto .rPtr) := by
    simp only [peReceive, hs.seq]
    exact readReg_stored hs.ready (reads_aFifoRxCurrent hwf) _
  exact Arrives.of_exec hs (exec_receive_cont hs h) State.engineView_afterRead

theorem receive_writePointer :
    LeadsTo c .receive ⟨.rPtr, .none⟩ v 1 ⟨.rFifo, .none⟩ (v.write c.aFifoAddrPtr v.tmp) := by
  rintro s rfl hs rfl
  have h : peReceive s = .cont ((s.afterWrite s.cfg.aFifoAddrPtr s.pe.tmp).goto .rFifo) := by
    simp only [peReceive, hs.seq]
    exact writeReg_plain hs.ready (Config.plain_aFifoAddrPtr hwf) _ _
  exact Arrives.of_exec hs (exec_receive_cont hs h) State.engineView_afterWrite

theorem receive_acknowledge :
    LeadsTo c .receive ⟨.rAck, .none⟩ v 1 ⟨.rStby, .mRd⟩ (v.clear c v.ackByte) := by
  rintro s rfl hs rfl
  obtain ⟨t, ht, hc⟩ := writeReg_flagsCleared hs.ready hwf (rxAckByte s) fun t => .cont (t.callSetMode .rStby)
  have h : peReceive s = .cont (t.callSetMode .rStby) := by simp only [peReceive, hs.seq, ht]
  exact Arrives.of_exec hs (exec_receive_cont hs h) hc.engineView rfl hc.cfg hc.host hc.lockOwner hc.busFault
    hc.busFails

end

/-! ## Up to the wait -/

namespace EngineView

/-- The receive procedure up to its wait (R216). -/
def receiving (v : EngineView) (c : Config) : EngineView := (v.ensureStandby c).setMode c modeRxCont

theorem receiving_regs (v : EngineView) (c : Config) (a : Addr) :
    (v.receiving c).regs a = if a = c.aOpmode then withMode (v.standbyByte c) modeRxCont else v.regs a := by
  simp [receiving, requestMode, ensureStandby_eq, Function.update_apply]
  grind

theorem receiving_log (v : EngineView) (c : Config) :
    (v.receiving c).log = v.log ++ (v.standbyLog c ++
      [(.rd, c.aOpmode, [v.standbyByte c]), (.wr, c.aOpmode, [withMode (v.standbyByte c) modeRxCont]),
       (.rd, c.aOpmode, [withMode (v.standbyByte c) modeRxCont])]) := by
  simp [receiving, requestMode, ensureStandby_eq]

theorem withMode_standbyByte (v : EngineView) (c : Config) (m : ModeCode) :
    withMode (v.standbyByte c) m = withMode (v.regs c.aOpmode) m := by
  unfold standbyByte
  split
  · rfl
  · exact withMode_withMode ..

/-- The device has received a packet (60_exceptions.md R285). -/
@[simps] def rxDone (v : EngineView) (c : Config) (a : Byte) (bytes : List Byte) (crcOk : Bool) : EngineView :=
  { v with
    regs := Function.update
      (Function.update (Function.update v.regs c.aFifoRxCurrent a) c.aRxNbBytes (BitVec.ofNat 8 bytes.length))
      c.aIrqFlags (v.regs c.aIrqFlags ||| rxFlags crcOk)
    fifo := Machine.fifoWrite c.fifoSize v.fifo (a.toNat % c.fifoSize) bytes }

end EngineView

theorem receive_receives {c : Config} {v : EngineView} (hwf : c.wf = true) :
    LeadsTo c .receive ⟨.rEns, .none⟩ v ((if v.shadow = modeStdby then 1 else 4) + 1 + 3) ⟨.rWait, .none⟩
      (v.receiving c) := by
  have h₁ := receive_toStandby.leadsToStandby (v := v) hwf fun s hq => by
    show (peReceive s).onDone _ = _
    simp only [peReceive, hq]
    rfl
  have h₂ : LeadsTo c .receive ⟨.rMode, .none⟩ (v.ensureStandby c) 1 ⟨.rMode, .mRd⟩ (v.ensureStandby c) := by
    rintro s - hs hv
    exact Arrives.of_exec hs (exec_receive_cont hs (peReceive_mode hs)) hv
  have h := (h₁.trans h₂).trans (receive_toReceive.leadsTo hwf (armWait_movesTo .rWait))
  rwa [Nat.add_comm 1, Nat.add_comm 3] at h

theorem devRxDone_engineView {s : State} {a : Byte} {bytes : List Byte} {crcOk : Bool} (hwf : s.cfg.wf = true)
    (hm : s.devMode = modeRxCont) (hn : bytes.length ≤ 255) :
    (devRxDone a bytes crcOk s).engineView = s.engineView.rxDone s.cfg a bytes crcOk := by
  dsimp only [devRxDone]
  rw [if_pos ⟨Or.inl hm, hn⟩]
  have h₁ : s.cfg.aIrqFlags ≠ s.cfg.aFifoRxCurrent := Config.named_ne hwf 10 9 (by decide)
  have h₂ : s.cfg.aIrqFlags ≠ s.cfg.aRxNbBytes := Config.named_ne hwf 10 11 (by decide)
  unfold State.raiseFlags
  rw [State.engineView_setFlags, State.engineView_putReg, State.engineView_putReg]
  simp only [State.flags, State.devReg_putReg, State.putReg_frame, if_neg h₁.symm, if_neg h₂.symm]
  rfl

/-- RECEIVE run alone up to its wait. -/
structure ReceiveEntered (s t : State) : Prop where
  run : execTimes ((if s.modeShadow = modeStdby then 1 else 4) + 6) .receive s = .next t
  hostAt : HostAt t ⟨.rWait, .none⟩
  cfg : t.cfg = s.cfg
  host : t.host = (s.bodyStart .receive).host
  view : t.engineView = (s.bodyStart .receive).engineView.receiving s.cfg
  mode : t.devMode = modeRxCont

theorem receive_enters {s : State} (hwf : s.cfg.wf = true) (hs : HostFresh s) :
    ∃ t, ReceiveEntered s t := by
  obtain ⟨t, ht⟩ := receive_receives hwf (s.bodyStart .receive) rfl (hs.bodyStart .receive) rfl
  refine ⟨t, (execTimes_bodyStart rfl rfl hs _).trans ht.runs, ht.hostAt, ht.cfg, ht.host, ht.view, ?_⟩
  show modeField (t.engineView.regs t.cfg.aOpmode) = modeRxCont
  rw [ht.view, ht.cfg]
  exact modeField_setMode ..

theorem ReceiveEntered.regs {s t : State} (h : ReceiveEntered s t) (a : Addr) :
    t.engineView.regs a = if a = s.cfg.aOpmode then withMode (s.devReg s.cfg.aOpmode) modeRxCont else s.devReg a := by
  rw [h.view, EngineView.receiving_regs, EngineView.withMode_standbyByte]
  rfl

/-- The command in its wait once a packet has arrived, in terms of the state `t` before the packet and the state `s` in
which the command was presented. -/
structure PacketArrived (s t d : State) (a : Byte) (bytes : List Byte) (crcOk : Bool) : Prop where
  hostAt : HostAt d ⟨.rWait, .none⟩
  cfg : d.cfg = s.cfg
  host : d.host = (s.bodyStart .receive).host
  flags : d.engineView.regs s.cfg.aIrqFlags = s.flags ||| rxFlags crcOk
  opmode : d.engineView.regs s.cfg.aOpmode = withMode (s.devReg s.cfg.aOpmode) modeRxCont
  length : d.engineView.regs s.cfg.aRxNbBytes = BitVec.ofNat 8 bytes.length
  address : d.engineView.regs s.cfg.aFifoRxCurrent = a
  fifo : d.engineView.fifo = fifoWrite s.cfg.fifoSize s.dev.fifo (a.toNat % s.cfg.fifoSize) bytes
  log : d.engineView.log = t.engineView.log

theorem ReceiveEntered.arrives {s t : State} (h : ReceiveEntered s t) (hwf : s.cfg.wf = true) (a : Byte)
    {bytes : List Byte} (hn : bytes.length ≤ 255) (crcOk : Bool) :
    PacketArrived s t (devRxDone a bytes crcOk t) a bytes crcOk := by
  have h₁ : s.cfg.aIrqFlags ≠ s.cfg.aOpmode := Config.named_ne hwf 10 1 (by decide)
  have h₂ : s.cfg.aRxNbBytes ≠ s.cfg.aOpmode := Config.named_ne hwf 11 1 (by decide)
  have h₃ : s.cfg.aFifoRxCurrent ≠ s.cfg.aOpmode := Config.named_ne hwf 9 1 (by decide)
  have h₄ : s.cfg.aRxNbBytes ≠ s.cfg.aIrqFlags := Config.named_ne hwf 11 10 (by decide)
  have h₅ : s.cfg.aFifoRxCurrent ≠ s.cfg.aIrqFlags := Config.named_ne hwf 9 10 (by decide)
  have h₆ : s.cfg.aFifoRxCurrent ≠ s.cfg.aRxNbBytes := Config.named_ne hwf 9 11 (by decide)
  have hview := devRxDone_engineView (s := t) (a := a) (crcOk := crcOk) (h.cfg ▸ hwf) h.mode hn
  rw [h.cfg] at hview
  have hd := devRxDone_onlyDevice a bytes crcOk t
  refine ⟨hd.hostAt h.hostAt, ?_, ?_, ?_, ?_, ?_, ?_, ?_, ?_⟩
  · obtain ⟨d, l, p, e⟩ := hd
    rw [e, ← h.cfg]
  · obtain ⟨d, l, p, e⟩ := hd
    rw [e, ← h.host]
  · rw [hview, EngineView.rxDone_regs, Function.update_self, h.regs, if_neg h₁]
    rfl
  · simp [hview, h₁.symm, h₂.symm, h₃.symm, h.regs]
  · simp [hview, h₄]
  · simp [hview, h₅, h₆]
  · rw [hview, EngineView.rxDone_fifo, h.view, EngineView.receiving, EngineView.setMode_fifo,
      EngineView.ensureStandby_eq]
    rfl
  · rw [hview]
    rfl

/-! ## A packet with a bad CRC (R217) -/

section
variable {c : Config} {v : EngineView} (hwf : c.wf = true) (hm : c.completionMode = .poll)
  (hrx : v.regs c.aIrqFlags &&& flagRxDone ≠ 0)
include hwf hm hrx

theorem receive_discards (hcrc : (v.waited c).crcBad = true) :
    LeadsTo c .receive ⟨.rWait, .none⟩ v 5 ⟨.rStby, .mVf⟩
      (((v.waited c).clear c (flagRxDone ||| flagCrcErr)).requestMode c modeStdby) := by
  have hcheck := receive_checkCrc (c := c) (v := v.waited c)
  have hack := receive_acknowledge hwf (v := v.waited c)
  rw [if_pos hcrc] at hcheck
  rw [EngineView.ackByte, if_pos hcrc] at hack
  exact (((receive_wait.leadsTo hwf hm hrx).trans hcheck).trans hack).trans (receive_backToStandby.leadsToVerify hwf)

end

/-- The last read-back of a RECEIVE whose packet had a bad CRC. -/
theorem receive_raises {s : State} (hs : HostAt s ⟨.rStby, .mVf⟩) (hwf : s.cfg.wf = true) (hd : s.devMode = modeStdby)
    (hcrc : s.crcBad = true) :
    exec .receive s =
      .next (receiveOnErr .payloadCrcError ((s.verified modeStdby).endedErr .payloadCrcError)) :=
  exec_of_body_raise rfl hs ((receive_backToStandby.body_at hs (by decide)).trans
    ((setModeStep_verified hs hwf hd).trans (congrArg (Micro.onDone · _) (if_pos hcrc))))

/-- The flags of a packet with a bad CRC show at the poll. -/
theorem rxFlags_crcBad (f : Byte) :
    (f ||| rxFlags false) &&& flagRxDone ≠ 0 ∧ (f ||| rxFlags false) &&& flagCrcErr ≠ 0 := by
  revert f
  decide

/-- Settles O35: the procedure runs to its last read-back with the CRC flag seen, and that step raises the error. -/
theorem crcErrorDiscardsThePacket : Obligations.CrcErrorDiscardsThePacket := by
  unfold Obligations.CrcErrorDiscardsThePacket
  intro s a m bytes hwf hs hm hlen hmdef
  obtain ⟨t, ht⟩ := receive_enters hwf hs
  have hd := ht.arrives hwf a hlen false
  obtain ⟨hrx, hcrc⟩ := rxFlags_crcBad s.flags
  rw [← hd.flags] at hrx hcrc
  obtain ⟨u, hu⟩ := receive_discards hwf hm hrx (bne_iff_ne.2 hcrc) _ hd.cfg hd.hostAt rfl
  have hcfg : u.cfg = s.cfg := hu.cfg.trans hd.cfg
  have hubad : u.crcBad = true := (congrArg EngineView.crcBad hu.view).trans (bne_iff_ne.2 hcrc)
  obtain ⟨hok, hview⟩ := State.verified_engineView hcfg hu.view
  have hlast := receive_raises hu.hostAt (hcfg ▸ hwf) hok hubad
  refine ⟨t, _, standby_stretch _ 6 ▸ ht.run, (hu.run 1).trans (execTimes_step hlast 0), ?_, rfl,
    congrArg (·.rbuf) (hu.host.trans hd.host), rfl, ?_, ?_, ?_⟩
  · refine ⟨rfl, ?_, rfl, rfl, rfl, rfl⟩
    show (if _ then _ else _ : Word32) = 0
    exact ite_self 0
  · refine (State.devReg_of_engineView hview _).trans ((closed_opmode hwf _ _).trans ?_)
    rw [EngineView.waited, EngineView.read_regs, hd.opmode, withMode_withMode, hmdef]
    rfl
  · have hcleared : ∀ f : Byte, (f ||| rxFlags false) &&& ~~~(flagRxDone ||| flagCrcErr) = f &&& ~~~0x60 := by decide
    show u.devReg u.cfg.aIrqFlags = _
    rw [hcfg]
    refine (State.devReg_of_engineView hview _).trans ((closed_flags hwf _ _).trans ?_)
    rw [EngineView.waited, EngineView.read_regs, hd.flags, hcleared]
  · have hlog := (congrArg EngineView.log hview).trans (closed_log hwf _ _)
    rw [EngineView.waited, EngineView.read_log, EngineView.read_regs, hd.log, hd.flags, hd.opmode, withMode_withMode,
      List.append_assoc] at hlog
    rw [hmdef]
    exact State.log_since (s := t) hlog

/-! ## A packet delivered (R216) -/

namespace EngineView

/-- The receive procedure from its wait to R_ACK, with a good CRC (R216). -/
def payloadRead (v : EngineView) (c : Config) : EngineView :=
  ((({ { (v.waited c).read c.aRxNbBytes with len := v.regs c.aRxNbBytes }.read c.aFifoRxCurrent with
    tmp := v.regs c.aFifoRxCurrent } : EngineView).write c.aFifoAddrPtr (v.regs c.aFifoRxCurrent)).fifoRead c
    (v.regs c.aRxNbBytes).toNat)

theorem payloadRead_ptr (v : EngineView) (c : Config) :
    (v.payloadRead c).regs c.aFifoAddrPtr =
      BitVec.ofNat 8 (((v.regs c.aFifoRxCurrent).toNat + (v.regs c.aRxNbBytes).toNat) % c.fifoSize) := by
  simp [payloadRead, waited, ptr]

theorem payloadRead_other (v : EngineView) {c : Config} {a : Addr} (h : a ≠ c.aFifoAddrPtr) :
    (v.payloadRead c).regs a = v.regs a := by
  simp [payloadRead, waited, h]

theorem payloadRead_log (v : EngineView) (c : Config) :
    (v.payloadRead c).log = v.log ++
      [(.rd, c.aIrqFlags, [v.regs c.aIrqFlags]), (.rd, c.aRxNbBytes, [v.regs c.aRxNbBytes]),
       (.rd, c.aFifoRxCurrent, [v.regs c.aFifoRxCurrent]), (.wr, c.aFifoAddrPtr, [v.regs c.aFifoRxCurrent])] ++
      (if (v.regs c.aRxNbBytes).toNat = 0 then [] else [(.rd, c.aFifo,
        Machine.fifoRead c.fifoSize v.fifo (v.regs c.aFifoRxCurrent).toNat (v.regs c.aRxNbBytes).toNat)]) := by
  simp [payloadRead, waited, ptr, fifoBytes]

theorem payloadRead_buf (v : EngineView) (c : Config) :
    (v.payloadRead c).buf = overlay v.buf
      (Machine.fifoRead c.fifoSize v.fifo (v.regs c.aFifoRxCurrent).toNat (v.regs c.aRxNbBytes).toNat) := by
  simp [payloadRead, waited, ptr, fifoBytes]

end EngineView

section
variable {c : Config} {v : EngineView} (hwf : c.wf = true) (hm : c.completionMode = .poll)
  (hrx : v.regs c.aIrqFlags &&& flagRxDone ≠ 0)
include hwf hm hrx

theorem receive_delivers (hcrc : (v.waited c).crcBad = false) (hp : (v.regs c.aFifoRxCurrent).toNat < c.fifoSize) :
    LeadsTo c .receive ⟨.rWait, .none⟩ v 9 ⟨.rStby, .mVf⟩
      (((v.payloadRead c).clear c flagRxDone).requestMode c modeStdby) := by
  have hcheck := receive_checkCrc (c := c) (v := v.waited c)
  rw [hcrc] at hcheck
  have hack := receive_acknowledge hwf (v := v.payloadRead c)
  rw [EngineView.ackByte, show (v.payloadRead c).crcBad = false from hcrc] at hack
  have h₁ := ((receive_wait.leadsTo hwf hm hrx).trans hcheck).trans (receive_readLength hwf)
  have h₂ := (h₁.trans (receive_readAddress hwf)).trans (receive_writePointer hwf)
  have h₃ := h₂.trans (receive_readPayload (by simpa [EngineView.ptr, EngineView.waited] using hp))
  exact (h₃.trans hack).trans (receive_backToStandby.leadsToVerify hwf)

end

/-- The last read-back of a RECEIVE whose packet had a good CRC. -/
theorem receive_returns {s : State} (hs : HostAt s ⟨.rStby, .mVf⟩) (hwf : s.cfg.wf = true) (hd : s.devMode = modeStdby)
    (hcrc : s.crcBad = false) :
    exec .receive s =
      .next (((s.verified modeStdby).deliver s.payload s.pe.len).endedOk (s.pe.len.setWidth 32)) :=
  receive_backToStandby.returns hs hwf hd (congrArg (Micro.onDone · _) (if_neg (Bool.eq_false_iff.1 hcrc)))

/-- The flags of a packet with a good CRC at the poll, where no stale CRC flag stands. -/
theorem rxFlags_crcGood : ∀ f : Byte, f &&& 0x20 = 0 →
    (f ||| rxFlags true) &&& flagRxDone ≠ 0 ∧ (f ||| rxFlags true) &&& flagCrcErr = 0 := by
  decide

/-- A packet that the FIFO holds is read as it was written, across the end of the FIFO too (20_memory.md R67, R68). -/
theorem fifoRead_fifoWrite {size : Nat} (m : Memory) {p : Nat} {bs : List Byte} (hp : p < size)
    (hl : bs.length ≤ size) : fifoRead size (fifoWrite size m p bs) p bs.length = bs := by
  apply List.ext_getElem?
  intro k
  by_cases hk : k < bs.length
  · rw [fifoRead_getElem? _ _ hp hk, fifoWrite_same bs m hp hl hk, List.getElem?_eq_getElem hk]
  · rw [List.getElem?_eq_none (by simpa using hk), List.getElem?_eq_none (by simpa using hk)]

theorem overlay_take (dst src : List Byte) : (overlay dst src).take src.length = src := List.take_left

section
variable {s t d : State} {a : Byte} {bytes : List Byte} {crcOk : Bool} (h : PacketArrived s t d a bytes crcOk)
include h

theorem PacketArrived.opmode_payloadRead (hwf : s.cfg.wf = true) :
    (d.engineView.payloadRead s.cfg).regs s.cfg.aOpmode = withMode (s.devReg s.cfg.aOpmode) modeRxCont :=
  (EngineView.payloadRead_other _ (Config.named_ne hwf 1 6 (by decide))).trans h.opmode

theorem PacketArrived.flags_payloadRead (hwf : s.cfg.wf = true) :
    (d.engineView.payloadRead s.cfg).regs s.cfg.aIrqFlags = s.flags ||| rxFlags crcOk :=
  (EngineView.payloadRead_other _ (Config.named_ne hwf 10 6 (by decide))).trans h.flags

theorem PacketArrived.length_toNat (hn : bytes.length ≤ 255) :
    (d.engineView.regs s.cfg.aRxNbBytes).toNat = bytes.length := by
  rw [h.length, BitVec.toNat_ofNat]
  exact Nat.mod_eq_of_lt (by omega)

/-- What the procedure reads is the packet, wherever in the FIFO it landed. -/
theorem PacketArrived.contents (ha : a.toNat < s.cfg.fifoSize) (hn : bytes.length ≤ 255)
    (hfits : bytes.length ≤ s.cfg.fifoSize) :
    fifoRead s.cfg.fifoSize d.engineView.fifo (d.engineView.regs s.cfg.aFifoRxCurrent).toNat
      (d.engineView.regs s.cfg.aRxNbBytes).toNat = bytes := by
  rw [h.length_toNat hn, h.address, h.fifo, Nat.mod_eq_of_lt ha]
  exact fifoRead_fifoWrite _ ha hfits

theorem PacketArrived.payload (ha : a.toNat < s.cfg.fifoSize) (hn : bytes.length ≤ 255)
    (hfits : bytes.length ≤ s.cfg.fifoSize) :
    (d.engineView.payloadRead s.cfg).buf.take (d.engineView.regs s.cfg.aRxNbBytes).toNat = bytes := by
  rw [EngineView.payloadRead_buf, h.contents ha hn hfits, h.length_toNat hn, overlay_take]

theorem PacketArrived.log_payloadRead (ha : a.toNat < s.cfg.fifoSize) (hn : bytes.length ≤ 255)
    (hfits : bytes.length ≤ s.cfg.fifoSize) :
    (d.engineView.payloadRead s.cfg).log = t.engineView.log ++
      [(.rd, s.cfg.aIrqFlags, [s.flags ||| rxFlags crcOk]), (.rd, s.cfg.aRxNbBytes, [BitVec.ofNat 8 bytes.length]),
       (.rd, s.cfg.aFifoRxCurrent, [a]), (.wr, s.cfg.aFifoAddrPtr, [a])] ++
      (if bytes = [] then [] else [(.rd, s.cfg.aFifo, bytes)]) := by
  rw [EngineView.payloadRead_log, h.contents ha hn hfits, h.length_toNat hn, h.length, h.address, h.flags, h.log]
  simp only [List.length_eq_zero_iff]

end

/-- Settles O34: the procedure reads the packet and acknowledges it, and its last read-back delivers. -/
theorem receiveDelivers : Obligations.ReceiveDelivers := by
  unfold Obligations.ReceiveDelivers
  intro s a m bytes hwf hs hm _ _ hstale ha hlen hfits hmdef
  obtain ⟨t, ht⟩ := receive_enters hwf hs
  have hd := ht.arrives hwf a hlen true
  obtain ⟨hrx, hcrc⟩ := rxFlags_crcGood s.flags hstale
  rw [← hd.flags] at hrx hcrc
  have hgood : ((devRxDone a bytes true t).engineView.waited s.cfg).crcBad = false := bne_eq_false_iff_eq.2 hcrc
  obtain ⟨u, hu⟩ := receive_delivers hwf hm hrx hgood (hd.address.symm ▸ ha) _ hd.cfg hd.hostAt rfl
  have hcfg : u.cfg = s.cfg := hu.cfg.trans hd.cfg
  obtain ⟨hok, hview⟩ := State.verified_engineView hcfg hu.view
  have hlast := receive_returns hu.hostAt (hcfg ▸ hwf) hok ((congrArg EngineView.crcBad hu.view).trans hgood)
  have hnum := hd.length_toNat hlen
  have hulen : u.pe.len.toNat = bytes.length := (congrArg (·.len.toNat) hu.view).trans hnum
  have hpay : u.payload = bytes :=
    (congrArg (fun v => v.buf.take v.len.toNat) hu.view).trans (hd.payload ha hlen hfits)
  obtain ⟨hmode, hstby⟩ := s.standby_eq (v := (s.bodyStart .receive).engineView) hmdef rfl rfl
  refine ⟨t, _, standby_stretch _ 6 ▸ ht.run, ht.mode, congrArg EngineView.shadow ht.view, ?_,
    (hu.run 1).trans (execTimes_step hlast 0), rfl, ?_, hulen, ?_, rfl, rfl, rfl, ?_, ?_, ?_, ?_⟩
  · have hlog := (congrArg EngineView.log ht.view).trans (EngineView.receiving_log _ _)
    rw [hmode, hstby] at hlog
    exact State.log_since (s := s) hlog
  · show (u.pe.len.setWidth 32).toNat = _
    rw [BitVec.toNat_setWidth_of_le (by decide), hulen]
  · show (overlay _ u.payload).take bytes.length = bytes
    rw [hpay, overlay_take]
  · refine (State.devReg_of_engineView hview _).trans ((closed_opmode hwf _ _).trans ?_)
    rw [hd.opmode_payloadRead hwf, withMode_withMode, ← s.withMode_standby hmdef]
    rfl
  · have hcleared : ∀ f : Byte, (f ||| rxFlags true) &&& ~~~flagRxDone = f &&& ~~~0x40 := by decide
    show u.devReg u.cfg.aIrqFlags = _
    rw [hcfg]
    refine (State.devReg_of_engineView hview _).trans ((closed_flags hwf _ _).trans ?_)
    rw [hd.flags_payloadRead hwf, hcleared]
  · refine (State.devReg_of_engineView hview _).trans ((closed_regs hwf _ _ _).trans ?_)
    rw [if_neg, if_neg, EngineView.payloadRead_ptr, hd.address, hnum]
    · exact Config.named_ne hwf 6 10 (by decide)
    · exact Config.named_ne hwf 6 1 (by decide)
  · have hlog := (congrArg EngineView.log hview).trans (closed_log hwf _ _)
    rw [hd.log_payloadRead ha hlen hfits, hd.opmode_payloadRead hwf, withMode_withMode,
      ← s.withMode_standby hmdef, ← s.withMode_standby hmdef, List.append_assoc,
      List.append_assoc, ← List.append_assoc _ (ite _ _ _)] at hlog
    exact State.log_since (s := t) hlog

end Sys2Proof.Machine
end

section
namespace Sys2Proof.Machine

/-! What a micro-step keeps of a safe state, and where it goes on: in the body it runs in. -/

/-! ## The part of safety that is about data and lines -/

/-- Everything a safe state asks for but the agreement around the lock. -/
structure DataOk (s : State) : Prop where
  config : s.cfg.wf = true
  memory : MemoryOk s
  buffers : BuffersOk s
  lines : LinesOk s

theorem Safe.dataOk {s : State} (h : Safe s) : DataOk s := ⟨h.config, h.memory, h.buffers, h.lines⟩

theorem DataOk.safe {s : State} (h : DataOk s) (hl : LockOk s) : Safe s := ⟨h.config, h.memory, h.buffers, hl, h.lines⟩

/-- Bytes that fit replace the front of a buffer and keep its length. -/
theorem overlay_length {dst src : List Byte} (h : src.length ≤ dst.length) : (overlay dst src).length = dst.length := by
  simp only [overlay, List.length_append, List.length_drop]
  omega

theorem DataOk.txn {s t : State} (h : DataOk s) (ht : TxnEffect s t) : DataOk t where
  config := ht.cfg ▸ h.config
  memory := ht.memory h.memory
  buffers :=
    { hbuf := ht.host ▸ h.buffers.hbuf
      rbuf := ht.host ▸ h.buffers.rbuf
      peBuf := ht.pe ▸ h.buffers.peBuf
      sBuf := by rw [ht.senders, ht.cfg]; exact h.buffers.sBuf
      snap := by rw [ht.snap, ht.cfg]; exact h.buffers.snap }
  lines :=
    { sel := ht.sel h.lines.sel
      devRst := ht.devRst.trans h.lines.devRst
      bracket := (congrArg BusPort.addrByte ht.busPort).trans h.lines.bracket }

/-- The block may write its own registers as long as the buffers keep their lengths. -/
theorem DataOk.write {s : State} (h : DataOk s) {x : ModemTuple} {m : ModeCode} {l : Bool} {p : PeRegs} {q : Seq}
    {o : Owner} {port : HostPort} {v : Five Sender} {d : Nat} (hp : p.buf.length = s.pe.buf.length := by rfl)
    (hh : port.hbuf.length = s.host.hbuf.length := by rfl) (hr : port.rbuf.length = s.host.rbuf.length := by rfl)
    (hv : ∀ i, (v.get i).buf.length = (s.senders.get i).buf.length := by exact fun _ => rfl) :
    DataOk { s with
      x := x, modeShadow := m, irqLatch := l, pe := p, seq := q, lockOwner := o, host := port, senders := v
      drawn := d } where
  config := h.config
  memory := h.memory.of_eq rfl rfl
  buffers :=
    { hbuf := hh.trans h.buffers.hbuf
      rbuf := hr.trans h.buffers.rbuf
      peBuf := hp.trans h.buffers.peBuf
      sBuf := fun i => (hv i).trans (h.buffers.sBuf i)
      snap := h.buffers.snap }
  lines := ⟨h.lines.sel, h.lines.devRst, h.lines.bracket⟩

theorem DataOk.initPulse {s : State} (h : DataOk s) : DataOk s.initPulse where
  config := h.config
  memory := (MemoryOk.devReset s).of_eq rfl rfl
  buffers := ⟨h.buffers.hbuf, h.buffers.rbuf, h.buffers.peBuf, h.buffers.sBuf, h.buffers.snap⟩
  lines := ⟨h.lines.sel, rfl, h.lines.bracket⟩

/-- The data of a state in a body, and what the body asks of the payload's length. -/
structure InBody (len : Byte → Prop) (s : State) : Prop extends DataOk s where
  len : len s.pe.len

/-- A micro-step keeps the data, and if it goes on, it does so at one of the positions `within`. -/
abbrev Post.stays (len : Byte → Prop) (within : Seq → Bool) : Post :=
  { Post.everyState (InBody len) with cont := fun t => InBody len t ∧ within t.seq = true }

/-- The sequencer, its registers, the shadow and the tuple are free to every operation. -/
theorem InBody.registers {len : Byte → Prop} {s : State} (h : InBody len s) {x : ModemTuple} {m : ModeCode} {l : Bool}
    {p : PeRegs} {q : Seq} (hb : p.buf = s.pe.buf := by rfl) (hl : p.len = s.pe.len := by rfl) :
    InBody len { s with x := x, modeShadow := m, irqLatch := l, pe := p, seq := q } :=
  ⟨h.write (hp := congrArg List.length hb), hl ▸ h.len⟩

theorem InBody.txn {len : Byte → Prop} {s t : State} (h : InBody len s) (ht : TxnEffect s t) : InBody len t :=
  ⟨h.toDataOk.txn ht, ht.pe ▸ h.len⟩

theorem InBody.armWait {len : Byte → Prop} {s : State} (h : InBody len s) (m : Main) : InBody len (s.armWait m) := by
  unfold State.armWait
  split
  · exact h.registers
  · exact h.registers

theorem InBody.deliver {len : Byte → Prop} {s : State} (h : InBody len s) {bs : List Byte} (hl : bs.length ≤ 255)
    (n : Byte) : InBody len (s.deliver bs n) :=
  ⟨h.write (hr := overlay_length (h.buffers.rbuf.symm ▸ hl)), h.len⟩

section
variable {len : Byte → Prop} {within : Seq → Bool} {s : State} (hs : InBody len s)
include hs

/-! ## Micro-steps with one transaction -/

theorem readReg_stays {a : Addr} {k : Byte → State → Micro}
    (hk : ∀ b t, InBody len t → t.seq = s.seq → (k b t).Sat (.stays len within)) :
    (readReg a s k).Sat (.stays len within) :=
  readReg_sat (fun b t ht _ _ => hk b t (hs.txn ht) ht.seq) (fun _ ht _ => hs.txn ht)
    ⟨fun _ => trivial, fun _ _ => trivial⟩

theorem writeReg_stays {a : Addr} {v : Byte} {k : State → Micro}
    (hk : ∀ t, InBody len t → t.seq = s.seq → (k t).Sat (.stays len within)) :
    (writeReg a v s k).Sat (.stays len within) :=
  writeReg_sat (fun t ht _ _ => hk t (hs.txn ht) ht.seq) (fun _ ht _ => hs.txn ht)
    ⟨fun _ => trivial, fun _ _ => trivial⟩

theorem burstRead_stays {a : Addr} {n : Nat} {k : List Byte → State → Micro}
    (hk : ∀ bs t, InBody len t → bs.length = n → (k bs t).Sat (.stays len within)) :
    ((busRead a n s).andThen k).Sat (.stays len within) :=
  burstRead_sat (fun bs t ht _ _ hl => hk bs t (hs.txn ht) hl) (fun _ ht _ => hs.txn ht)
    ⟨fun _ => trivial, fun _ _ => trivial⟩ fun _ _ => trivial

theorem burstWrite_stays {a : Addr} {d : List Byte} {k : List Byte → State → Micro}
    (hk : ∀ t, InBody len t → (k [] t).Sat (.stays len within)) :
    ((busWrite a d s).andThen k).Sat (.stays len within) :=
  burstWrite_sat (fun t ht _ _ => hk t (hs.txn ht)) (fun _ ht _ => hs.txn ht)
    ⟨fun _ => trivial, fun _ _ => trivial⟩ fun _ _ => trivial

/-- A mode transition goes on inside its main step, or with what follows it. -/
theorem setModeStep_stays {target : ModeCode} {retry : Bool} {k : State → Micro}
    (hq : ∀ b, b ≠ .none → within ⟨s.seq.main, b⟩ = true) (hk : ∀ t, InBody len t → (k t).Sat (.stays len within)) :
    (setModeStep target retry s k).Sat (.stays len within) := by
  have moves : ∀ {t : State} {b : Sub}, t.seq = s.seq → b ≠ .none → within ⟨t.seq.main, b⟩ = true :=
    fun e hb => e ▸ hq _ hb
  unfold setModeStep
  split
  · exact readReg_stays hs.registers fun v t ht e => ⟨ht.registers, moves e (by decide)⟩
  · exact writeReg_stays hs fun t ht e => ⟨ht.registers, moves e (by decide)⟩
  · refine readReg_stays hs fun r t ht e => ?_
    split
    · exact hk _ ht.registers
    · split
      · exact ⟨ht.registers, moves e (by decide)⟩
      · exact ht.registers
  · trivial

/-- A completion wait stays where it is, or goes on with what follows it. -/
theorem waitStep_stays {bit : Byte} {timeout : Err} {k : State → Micro} (hq : within s.seq = true)
    (hk : ∀ t, InBody len t → (k t).Sat (.stays len within)) : (waitStep bit timeout s k).Sat (.stays len within) := by
  unfold waitStep
  split
  · refine readReg_stays hs fun f t ht e => ?_
    dsimp only
    split
    · exact hk _ ht.registers
    · split
      · exact ht.registers
      · exact ⟨ht.registers, (congrArg within e).trans hq⟩
  · unfold irqStep
    split
    · refine readReg_stays hs.registers fun f t ht e => ?_
      dsimp only
      split
      · exact hk _ ht.registers
      · exact ⟨ht.registers, (congrArg within e).trans hq⟩
    · split
      · exact hs
      · exact ⟨hs, hq⟩

theorem ensureStandby_stays {m next : Main} (hm : within ⟨m, .mRd⟩ = true) (hn : within ⟨next, .none⟩ = true) :
    (Micro.cont (ensureStandby m next s)).Sat (.stays len within) := by
  unfold ensureStandby
  split
  · exact ⟨hs.registers, hn⟩
  · exact ⟨hs.registers, hm⟩

/-! ## The body of each command -/

theorem rdregBody_stays (a : Addr) : (rdregBody a s).Sat (.stays len within) := by
  unfold rdregBody
  split
  · exact readReg_stays hs fun _ _ ht _ => ht
  · trivial

theorem wrregBody_stays (a : Addr) (d : Byte) : (wrregBody a d s).Sat (.stays len within) := by
  unfold wrregBody
  split
  · exact writeReg_stays hs fun _ ht _ => ht
  · trivial


theorem rdburstBody_stays (a : Addr) (n : Byte) : (rdburstBody a n s).Sat (.stays len within) := by
  unfold rdburstBody
  split
  · split
    · exact ⟨hs.write, hs.len⟩
    · exact burstRead_stays hs fun bs t ht hl => ht.deliver (by omega) n
  · trivial

theorem wrburstBody_stays (a : Addr) (n : Byte) : (wrburstBody a n s).Sat (.stays len within) := by
  unfold wrburstBody
  split
  · split
    · exact hs
    · exact burstWrite_stays hs fun _ ht => ht
  · trivial

theorem rmwBody_stays {a : Addr} {mask val : Byte} {pos : Nat} {commit : State → State}
    (hq : within ⟨.cWr, .none⟩ = true) (hc : ∀ t, InBody len t → InBody len (commit t)) :
    (rmwBody a mask pos val commit s).Sat (.stays len within) := by
  unfold rmwBody
  split
  · exact readReg_stays hs fun _ _ ht _ => ⟨ht.registers, hq⟩
  · exact writeReg_stays hs fun t ht _ => hc t ht
  · trivial

theorem setpreBody_stays (n : BitVec 16) : (setpreBody n s).Sat (.stays len (bodySeq (.setpre n))) := by
  unfold setpreBody
  split
  · exact writeReg_stays hs fun _ ht _ => ⟨ht.registers, rfl⟩
  · exact writeReg_stays hs fun _ ht _ => ht.registers
  · trivial

theorem setfreqBody_stays (f : Word32) : (setfreqBody f s).Sat (.stays len (bodySeq (.setfreq f))) := by
  unfold setfreqBody
  split
  · exact writeReg_stays hs fun _ ht _ => ⟨ht.registers, rfl⟩
  · exact writeReg_stays hs fun _ ht _ => ⟨ht.registers, rfl⟩
  · exact writeReg_stays hs fun _ ht _ => ht.registers
  · trivial

theorem setpwrBody_stays (p dbm : Byte) : (setpwrBody p s).Sat (.stays len (bodySeq (.setpwr dbm))) := by
  unfold setpwrBody
  split
  · exact writeReg_stays hs fun _ ht _ => ⟨ht.registers, rfl⟩
  · exact writeReg_stays hs fun _ ht _ => ht.registers
  · trivial

theorem getBody_stays (a : Addr) (field : Byte → Word32) : (getBody a field s).Sat (.stays len within) := by
  unfold getBody
  split
  · exact readReg_stays hs fun _ _ ht _ => ht
  · trivial

theorem getpreBody_stays : (getpreBody s).Sat (.stays len (bodySeq .getpre)) := by
  unfold getpreBody
  split
  · exact readReg_stays hs fun _ _ ht _ => ⟨ht.registers, rfl⟩
  · exact readReg_stays hs fun _ _ ht _ => ht
  · trivial

theorem getfreqBody_stays : (getfreqBody s).Sat (.stays len (bodySeq .getfreq)) := by
  unfold getfreqBody
  split
  · exact readReg_stays hs fun _ _ ht _ => ⟨ht.registers, rfl⟩
  · exact readReg_stays hs fun _ _ ht _ => ⟨ht.registers, rfl⟩
  · exact readReg_stays hs fun _ _ ht _ => ht
  · trivial

theorem setmodeBody_stays (m : ModeCode) : (setmodeBody m s).Sat (.stays len (bodySeq (.setmode m))) := by
  unfold setmodeBody
  split
  · next hq => exact setModeStep_stays hs (by simp [hq, bodySeq]) fun _ ht => ht
  · trivial

theorem initBody_stays : (initBody s).Sat (.stays len isInitSeq) := by
  unfold initBody
  split
  case h_1 => exact ⟨⟨hs.initPulse.write, hs.len⟩, rfl⟩
  case h_2 => exact writeReg_stays hs fun _ ht _ => ⟨ht.registers, rfl⟩
  case h_3 =>
    refine readReg_stays hs fun r t ht _ => ?_
    split
    · exact ⟨ht.registers, rfl⟩
    · exact ht.registers
  case h_4 => exact writeReg_stays hs fun _ ht _ => ⟨ht.registers, rfl⟩
  case h_5 => exact writeReg_stays hs fun _ ht _ => ⟨ht.registers, rfl⟩
  case h_6 h => exact setModeStep_stays hs (by simp [h, isInitSeq]) fun _ ht => ht
  case h_7 => trivial

theorem peTransmit_stays : (peTransmit s).Sat (.stays len isTransmitSeq) := by
  unfold peTransmit
  split
  case h_1 => exact ensureStandby_stays hs rfl rfl
  case h_2 h => exact setModeStep_stays hs (by simp [h, isTransmitSeq]) fun _ ht => ⟨ht.registers, rfl⟩
  case h_3 => exact readReg_stays hs fun _ _ ht _ => ⟨ht.registers, rfl⟩
  case h_4 => exact writeReg_stays hs fun _ ht _ => ⟨ht.registers, rfl⟩
  case h_5 => exact burstWrite_stays hs fun _ ht => ⟨ht.registers, rfl⟩
  case h_6 => exact writeReg_stays hs fun _ ht _ => ⟨ht.registers, rfl⟩
  case h_7 => exact writeReg_stays hs fun _ ht _ => ⟨ht.registers, rfl⟩
  case h_8 h =>
    exact setModeStep_stays hs (by simp [h, isTransmitSeq]) fun t ht => ⟨ht.armWait _, by rw [State.armWait_vals]; rfl⟩
  case h_9 h => exact waitStep_stays hs (by rw [h]; rfl) fun _ ht => ⟨ht.registers, rfl⟩
  case h_10 => exact writeReg_stays hs fun _ ht _ => ⟨ht.registers, rfl⟩
  case h_11 h => exact setModeStep_stays hs (by simp [h, isTransmitSeq]) fun _ ht => ht
  case h_12 => trivial

end

/-- The receive procedure takes the payload's length from the device: it asks nothing of it. -/
theorem peReceive_stays {s : State} (hs : InBody (fun _ => True) s) :
    (peReceive s).Sat (.stays (fun _ => True) isReceiveSeq) := by
  unfold peReceive
  split
  case h_1 => exact ensureStandby_stays hs rfl rfl
  case h_2 h => exact setModeStep_stays hs (by simp [h, isReceiveSeq]) fun _ ht => ⟨ht.registers, rfl⟩
  case h_3 => exact ⟨hs.registers, rfl⟩
  case h_4 h =>
    exact setModeStep_stays hs (by simp [h, isReceiveSeq]) fun t ht => ⟨ht.armWait _, by rw [State.armWait_vals]; rfl⟩
  case h_5 h => exact waitStep_stays hs (by rw [h]; rfl) fun _ ht => ⟨ht.registers, rfl⟩
  case h_6 =>
    refine ⟨hs.registers, ?_⟩
    rw [State.goto_vals]
    split
    · rfl
    · rfl
  case h_7 => exact readReg_stays hs fun _ _ ht _ => ⟨⟨ht.write, trivial⟩, rfl⟩
  case h_8 => exact readReg_stays hs fun _ _ ht _ => ⟨ht.registers, rfl⟩
  case h_9 => exact writeReg_stays hs fun _ ht _ => ⟨ht.registers, rfl⟩
  case h_10 =>
    split
    · exact ⟨hs.registers, rfl⟩
    · refine burstRead_stays hs fun bs t ht hl => ⟨⟨ht.write (hp := overlay_length ?_), trivial⟩, rfl⟩
      rw [ht.buffers.peBuf]
      omega
  case h_11 => exact writeReg_stays hs fun _ ht _ => ⟨ht.registers, rfl⟩
  case h_12 h =>
    refine setModeStep_stays hs (by simp [h, isReceiveSeq]) fun t ht => ?_
    split
    · exact ht
    · exact ht
  case h_13 => trivial

/-- What the body of a command asks of the payload's length: TRANSMIT that it lies in its range (00_scope.md R7). -/
def payloadFits (c : Config) : Instr → Byte → Prop
  | .transmit _, n => 1 ≤ n.toNat ∧ n.toNat ≤ c.maxPayload
  | _, _ => True

/-- The body of every command of the envelope. -/
theorem envelopeOf_body_stays {i : Instr} {s : State} (hi : usesEnvelope i = true)
    (hs : InBody (payloadFits s.cfg i) s) :
    ((envelopeOf s.cfg i).body s).Sat (.stays (payloadFits s.cfg i) (bodySeq i)) := by
  cases i with
  | rdreg a => exact rdregBody_stays hs a
  | wrreg a d => exact wrregBody_stays hs a d
  | rdburst a n => exact rdburstBody_stays hs a n
  | wrburst a n => exact wrburstBody_stays hs a n
  | setsf | setbw | setcr | setcrc => exact rmwBody_stays hs rfl fun _ ht => ht.registers
  | setpre n => exact setpreBody_stays hs n
  | setfreq f => exact setfreqBody_stays hs f
  | setpwr d => exact setpwrBody_stays hs _ d
  | getsf | getbw | getcr | getcrc => exact getBody_stays hs _ _
  | getpre => exact getpreBody_stays hs
  | getfreq => exact getfreqBody_stays hs
  | setmode m => exact setmodeBody_stays hs m
  | init => exact initBody_stays hs
  | transmit len => exact Micro.onDone_sat (peTransmit_stays hs)
  | receive =>
    exact Micro.onDone_sat ((peReceive_stays hs).mono (fun _ => id)
      (fun _ t ht => ht.deliver ((List.length_take_le ..).trans (by omega)) _) (fun _ _ => id) (fun _ => id)
      (fun _ => id))
  | ismode | schstart | busRd | busWr => cases hi

end Sys2Proof.Machine
end

section
namespace Sys2Proof.Machine

/-! The steps of a sender: the scheduler's equations, and SEND with its frame (44_arbiter_scheduler.md R240 to R255). -/

/-! ## The transmit procedure as a sender runs it -/

/-- The errors the transmit procedure can raise (43_packet_engine.md R212). -/
def transmitRaises : Err → Prop
  | .busFault | .modeVerificationFailed _ | .transmitTimeout => True
  | _ => False

/-- Their completion codes (60_exceptions.md R270). -/
theorem code_of_transmitRaises {e : Err} (h : transmitRaises e) : e.code = 1 ∨ e.code = 2 ∨ e.code = 4 := by
  cases e with
  | busFault => exact .inl rfl
  | modeVerificationFailed r => exact .inr (.inl rfl)
  | transmitTimeout => exact .inr (.inr rfl)
  | _ => exact h.elim

/-- The lock has the holder it had, and if nobody held it, so that no transaction could start, a healthy bus has the
device as it was. -/
abbrev SendKeeps (s t : State) : Prop :=
  t.lockOwner = s.lockOwner ∧ (s.lockOwner = .none → s.busFault = false → s.busFails = false → t.dev = s.dev)

/-- However a micro-step ends, it keeps what SEND relies on, and an error is one of the transmit procedure's. -/
abbrev Post.sends (s : State) : Post :=
  { Post.everyState (SendKeeps s) with raise := fun e t => SendKeeps s t ∧ transmitRaises e }

theorem SendKeeps.quiet {s t : State} (ho : t.lockOwner = s.lockOwner := by rfl) (hd : t.dev = s.dev := by rfl) :
    SendKeeps s t := ⟨ho, fun _ _ _ => hd⟩

/-- What follows a completed transaction, which somebody held the lock for. -/
theorem Micro.Sat.sends {m : Micro} {s t : State} (h : m.Sat (.sends t)) (ht : TxnEffect s t)
    (ho : s.lockOwner ≠ .none) : m.Sat (.sends s) :=
  have held : ∀ {u}, SendKeeps t u → SendKeeps s u := fun hu => ⟨hu.1.trans ht.lockOwner, fun hn => absurd hn ho⟩
  h.mono (fun _ => held) (fun _ _ => held) (fun _ _ hu => ⟨held hu.1, hu.2⟩) (fun _ => id) (fun _ => id)

/-- A transaction that failed did not meet a healthy bus. -/
theorem TxnEffect.sendKeeps {s t : State} (ht : TxnEffect s t) (hb : t.busFault = true) : SendKeeps s t := by
  refine ⟨ht.lockOwner, fun _ hf hx => ?_⟩
  rw [ht.healthy hx, hf] at hb
  cases hb

section
variable {s : State}

theorem readReg_sends {a : Addr} {k : Byte → State → Micro}
    (hk : ∀ b t, (k b t).Sat (.sends t) := by exact fun _ _ => .quiet) : (readReg a s k).Sat (.sends s) :=
  readReg_sat (fun b t ht _ ho => (hk b t).sends ht ho) (fun _ ht hb => ⟨ht.sendKeeps hb, trivial⟩)
    ⟨fun _ => trivial, fun _ _ => trivial⟩

theorem writeReg_sends {a : Addr} {v : Byte} {k : State → Micro}
    (hk : ∀ t, (k t).Sat (.sends t) := by exact fun _ => .quiet) : (writeReg a v s k).Sat (.sends s) :=
  writeReg_sat (fun t ht _ ho => (hk t).sends ht ho) (fun _ ht hb => ⟨ht.sendKeeps hb, trivial⟩)
    ⟨fun _ => trivial, fun _ _ => trivial⟩

theorem burstWrite_sends {a : Addr} {d : List Byte} {k : List Byte → State → Micro}
    (hk : ∀ bs t, (k bs t).Sat (.sends t) := by exact fun _ _ => .quiet) :
    ((busWrite a d s).andThen k).Sat (.sends s) :=
  burstWrite_sat (fun t ht _ ho => (hk [] t).sends ht ho) (fun _ ht hb => ⟨ht.sendKeeps hb, trivial⟩)
    ⟨fun _ => trivial, fun _ _ => trivial⟩ fun _ _ => trivial

theorem setModeStep_sends {target : ModeCode} {retry : Bool} {k : State → Micro}
    (hk : ∀ t, (k t).Sat (.sends t) := by exact fun _ => .quiet) : (setModeStep target retry s k).Sat (.sends s) := by
  unfold setModeStep
  split
  · exact readReg_sends
  · exact writeReg_sends
  · refine readReg_sends fun r t => ?_
    split
    · exact hk _
    · split
      · exact .quiet
      · exact ⟨.quiet, trivial⟩
  · trivial

theorem waitStep_sends {bit : Byte} {k : State → Micro} (hk : ∀ t, (k t).Sat (.sends t) := by exact fun _ => .quiet) :
    (waitStep bit .transmitTimeout s k).Sat (.sends s) := by
  unfold waitStep
  split
  · refine readReg_sends fun f t => ?_
    dsimp only
    split
    · exact hk _
    · split
      · exact ⟨.quiet, trivial⟩
      · exact .quiet
  · unfold irqStep
    split
    · refine readReg_sends fun f t => ?_
      dsimp only
      split
      · exact hk _
      · exact .quiet
    · split
      · exact ⟨.quiet, trivial⟩
      · exact .quiet

theorem peTransmit_sends (s : State) : (peTransmit s).Sat (.sends s) := by
  unfold peTransmit
  split
  case h_1 => exact .quiet (ensureStandby_quiet .onlyShadow ..).lockOwner (ensureStandby_dev ..)
  case h_2 => exact setModeStep_sends
  case h_3 => exact readReg_sends
  case h_4 => exact writeReg_sends
  case h_5 => exact burstWrite_sends
  case h_6 => exact writeReg_sends
  case h_7 => exact writeReg_sends
  case h_8 => exact setModeStep_sends fun t => .quiet (Quiet.armWait .onlyShadow t _).lockOwner (t.armWait_dev _)
  case h_9 => exact waitStep_sends
  case h_10 => exact writeReg_sends
  case h_11 => exact setModeStep_sends
  case h_12 => trivial

end

/-! ## A sender's step in SEND -/

/-- Off the faulted bus, a step in SEND is the procedure's micro-step, completed (R247). -/
theorem senderStep_send {i : Sid} {k : Bool} {s : State} (hp : (s.senders.get i).phase = .sending)
    (hf : ¬ (s.seq = ⟨.tEns, .none⟩ ∧ s.busFault = true)) :
    senderStep i k s = (sendCompletion i).outcome (peTransmit s) := by
  unfold senderStep senderSend
  rw [hp]
  simp only [if_neg hf]
  cases peTransmit s <;> rfl

/-- How a step in SEND ends: the procedure goes on, or SEND ends with OK or one of the procedure's errors, in a state
the procedure left. -/
inductive SendStep (i : Sid) (s : State) : State → Prop where
  | faulted (hf : s.busFault = true) : SendStep i s (s.sendEnded i 1)
  | goesOn (t : State) (h : peTransmit s = .cont t) : SendStep i s t
  | returns (r : Word32) (t : State) (h : peTransmit s = .done r t) : SendStep i s (t.sendEnded i 0)
  | raises (e : Err) (t : State) (h : peTransmit s = .raise e t) : SendStep i s (t.sendEnded i e.code)

theorem senderStep_sendStep {i : Sid} {k : Bool} {s t : State} (hp : (s.senders.get i).phase = .sending)
    (h : senderStep i k s = .next t) : SendStep i s t := by
  by_cases hf : s.seq = ⟨.tEns, .none⟩ ∧ s.busFault = true
  · rw [senderStep_faulted hp hf.1 hf.2] at h
    cases h
    exact .faulted hf.2
  · rw [senderStep_send hp hf] at h
    cases hm : peTransmit s with
    | cont u => rw [hm] at h; cases h; exact .goesOn _ hm
    | done r u => rw [hm] at h; cases h; exact .returns r u hm
    | raise e u => rw [hm] at h; cases h; exact .raises e u hm
    | fault f => rw [hm] at h; cases h
    | refused r => rw [hm] at h; cases h

/-- A step in SEND keeps what the procedure's micro-steps keep. -/
theorem SendStep.keeps {i : Sid} {s t : State} (h : SendStep i s t) : SendKeeps s t := by
  have hm := peTransmit_sends s
  cases h with
  | faulted => exact .quiet
  | goesOn t h => rw [h] at hm; exact hm
  | returns r t h => rw [h] at hm; exact hm
  | raises e t h => rw [h] at hm; exact hm.1

/-- A step in SEND leaves the sender's own registers alone, or ends with one of the codes of R247. -/
theorem SendStep.sender {i : Sid} {s t : State} (h : SendStep i s t) :
    t.senders.get i = s.senders.get i ∨ (t.seq = .idle ∧ ∃ c : Byte, (c = 0 ∨ c = 1 ∨ c = 2 ∨ c = 4) ∧
      t.senders.get i = { s.senders.get i with phase := .release, status := c }) := by
  have hm := peTransmit_sends s
  have he := peTransmit_effect (w := .onlyShadow) rfl s
  have ended : ∀ (u : State) (c : Byte), u.senders = s.senders →
      (u.sendEnded i c).senders.get i = { s.senders.get i with phase := .release, status := c } := fun u c e => by
    rw [← e]
    exact Five.get_set_same ..
  cases h with
  | faulted => exact .inr ⟨rfl, 1, .inr (.inl rfl), ended s 1 rfl⟩
  | goesOn t h =>
    rw [h] at he
    exact .inl (congrArg (·.get i) (MicroEffect.senders he))
  | returns r t h =>
    rw [h] at he
    exact .inr ⟨rfl, 0, .inl rfl, ended t 0 (MicroEffect.senders he)⟩
  | raises e t h =>
    rw [h] at hm he
    exact .inr ⟨rfl, e.code, .inr (code_of_transmitRaises hm.2), ended t _ (MicroEffect.senders he)⟩

/-- The device's frame of a step in SEND is that of the transmit procedure's micro-step; with nobody holding the lock
there is no transaction to speak of. -/
theorem SendStep.frame {i : Sid} {s t : State} (h : SendStep i s t) (hw : s.cfg.wf = true) (hb : s.busFault = false)
    (hf : s.busFails = false) (len : BitVec 16) : CommandFrame (.transmit len) s t := by
  by_cases ho : s.lockOwner = .none
  · exact .of_dev_eq (h.keeps.2 ho hb hf)
  have hm := peTransmit_frame ⟨ho, hb, hf⟩ hw len
  cases h with
  | faulted hf => rw [hb] at hf; cases hf
  | goesOn t h => rw [h] at hm; exact hm
  | returns r t h => rw [h] at hm; exact DeviceFrame.congr_dev hm rfl
  | raises e t h => rw [h] at hm; exact DeviceFrame.congr_dev hm rfl

/-- Settles O42: TRANSMIT's body and SEND take `peTransmit`'s micro-step, each with its own completion. -/
theorem senderSends : Obligations.SenderSends := by
  unfold Obligations.SenderSends
  refine ⟨fun s len hp => ?_, fun i k s hp => ⟨fun hf => senderStep_faulted hp hf.1 hf.2, fun hf => ?_, fun t h => ?_⟩⟩
  · rw [exec_at_e3 rfl hp]
    show Completion.outcome _ ((peTransmit s).onDone _) = _
    cases peTransmit s <;> rfl
  · rw [senderStep_send hp hf]
    cases peTransmit s <;> rfl
  · have hsend := senderStep_sendStep hp h
    have he := senderStep_effect h
    refine ⟨he.host, hsend.keeps.1, he.snap, he.x, he.others, hsend.sender, fun hw hb hf => ?_⟩
    have hframe := hsend.frame hw hb hf 0
    exact ⟨hframe.reg, hframe.fifo⟩

end Sys2Proof.Machine
end

section
namespace Sys2Proof.Machine

/-! ## The other steps of a sender -/

theorem timeReached_iff (now t : Word32) : timeReached now t = true ↔ (now - t).toNat < 2 ^ 31 := decide_eq_true_iff

/-- Settles O44: the distance from the tick to the time is `k` itself, across the wrap. -/
theorem timeReachedHalfRange : Obligations.TimeReachedHalfRange := by
  unfold Obligations.TimeReachedHalfRange
  intro t k hk
  have hdist : t + BitVec.ofNat 32 k - t = BitVec.ofNat 32 k := by rw [BitVec.add_comm, BitVec.add_sub_cancel]
  rw [timeReached_iff, hdist, BitVec.toNat_ofNat, Nat.mod_eq_of_lt hk]

/-- Settles O39: the step is WAKE, whose test is that of the tick. -/
theorem senderWakes : Obligations.SenderWakes := by
  unfold Obligations.SenderWakes
  intro i k s hp
  have hstep : senderStep i k s = .next (senderWake i s) := by rw [senderStep, hp]
  rw [hstep, senderWake]
  constructor
  · intro ht
    rw [if_pos ((timeReached_iff _ _).2 ht)]
    cases s.cfg.lockTimeoutMs <;> rfl
  · intro ht
    rw [if_neg (by rw [timeReached_iff]; omega)]

theorem skipEnabled_iff (i : Sid) (s : State) :
    skipEnabled i s = true ↔
      s.cfg.lockTimeoutMs ≠ none ∧ (s.now - (s.senders.get i).lockDeadline).toNat < 2 ^ 31 := by
  rw [skipEnabled, Bool.and_eq_true, timeReached_iff, Option.isSome_iff_ne_none]

/-- Settles O40: ACQUIRE and SKIP, by what is enabled and what the environment chooses. -/
theorem senderAcquiresOrSkips : Obligations.SenderAcquiresOrSkips := by
  unfold Obligations.SenderAcquiresOrSkips
  intro i k s hp dl hdl
  obtain rfl : skipEnabled i s = dl := Bool.eq_iff_iff.2 ((skipEnabled_iff i s).trans hdl.symm)
  have hstep : senderStep i k s = .next (senderWaitlock i k s) := by rw [senderStep, hp]
  rw [hstep, senderWaitlock]
  refine ⟨fun ho hk => ?_, fun hd hk => ?_, fun ho hd => ?_⟩
  · have hacquire : ¬ (k = true ∧ skipEnabled i s = true) := by simpa [imp_iff_not_or] using hk
    rw [if_pos ⟨ho, hacquire⟩]
    rfl
  · have hskip : ¬ (s.lockOwner = .none ∧ ¬ (k = true ∧ skipEnabled i s = true)) := by
      rintro ⟨ho, hn⟩
      exact hn ⟨hk.resolve_left (absurd ho), hd⟩
    rw [if_neg hskip, if_pos hd]
    rfl
  · rw [if_neg fun h => ho h.1, if_neg (by simp [hd])]

/-- Settles O41: the step is COPY. -/
theorem senderCopiesItsRecord : Obligations.SenderCopiesItsRecord := by
  unfold Obligations.SenderCopiesItsRecord
  intro i k s hp
  rw [senderStep, hp]
  rfl

/-- Settles O43: the step is RELEASE. -/
theorem senderReleases : Obligations.SenderReleases := by
  unfold Obligations.SenderReleases
  intro i k s hp
  rw [senderStep, hp]
  rfl

/-! ## SCHSTART -/

theorem Five.get_imap {α β : Type} (f : Sid → α → β) (v : Five α) (i : Sid) : (v.imap f).get i = f i (v.get i) := by
  cases i <;> rfl

/-- The five bits in order: bit `i` is sender `i`'s (44_arbiter_scheduler.md R241). -/
theorem getLsbD_senderBits (b : Five Bool) (i : Sid) : (senderBits b).getLsbD i.toNat = b.get i := by
  obtain ⟨b0, b1, b2, b3, b4⟩ := b
  simp only [senderBits, BitVec.getLsbD_setWidth, BitVec.getLsbD_append, BitVec.getLsbD_ofBool]
  cases i <;> simp [Sid.toNat, Five.get]

theorem senderBits_lt (b : Five Bool) : (senderBits b).toNat < 32 := by
  simp only [senderBits, BitVec.toNat_setWidth]
  exact (Nat.mod_le ..).trans_lt (BitVec.isLt _)

/-- Settles O38: SCHSTART maps `startSender` over the senders and answers the bits of those that are not off. -/
theorem schstartStartsSenders : Obligations.SchstartStartsSenders := by
  unfold Obligations.SchstartStartsSenders
  intro s mask
  refine ⟨_, rfl, fun i => ⟨fun h => ?_, fun h => ?_, ?_⟩, ?_, rfl⟩
  · exact (Five.get_imap ..).trans (if_pos h)
  · exact (Five.get_imap ..).trans (if_neg h)
  · show (senderBits _).getLsbD i.toNat = true ↔ _
    rw [getLsbD_senderBits, Five.get_imap, bne_iff_ne]
    rfl
  · exact senderBits_lt _

end Sys2Proof.Machine
end

section
namespace Sys2Proof.Machine

/-! Every step of the machine keeps a safe state safe: the agreement around the lock, by its holder, and each agent. -/

/-! ## The agreement around the lock, by its holder -/

/-- A command past E0 is in the port, runs inside the envelope and has passed its argument check
(40_register_interface.md R137). -/
abbrev CommandInEnvelope (s : State) : Prop :=
  s.host.pos ≠ .e0 → s.host.busy = true ∧ s.cmdIs (fun i => usesEnvelope i && (argCheck s.cfg i).isNone) = true

/-- The payload's length lies in its range (00_scope.md R7). -/
abbrev PayloadInRange (s : State) : Prop := 1 ≤ s.pe.len.toNat ∧ s.pe.len.toNat ≤ s.cfg.maxPayload

theorem CommandInEnvelope.of_e0 {s : State} (h : s.host.pos = .e0) : CommandInEnvelope s := fun hp => absurd h hp

/-- Nobody holds the lock. -/
theorem LockOk.of_free {s : State} (ho : s.lockOwner = .none) (hq : s.seq = .idle) (hp : s.host.pos ≠ .e3)
    (hs : ∀ i, phaseHolds (s.senders.get i).phase = false) (hc : CommandInEnvelope s) : LockOk s where
  host := by simp [hp, ho]
  sender i := by simp [hs i, ho]
  idle _ := hq
  sending i h := by rw [ho] at h; cases h
  body h := by rw [ho] at h; cases h
  command := hc
  payload h := by rw [hq] at h; cases h

/-- The host holds it, in the body of its command. -/
theorem LockOk.of_host {s : State} (ho : s.lockOwner = .host) (hp : s.host.pos = .e3)
    (hs : ∀ i, phaseHolds (s.senders.get i).phase = false) (hb : s.cmdIs (fun i => bodySeq i s.seq) = true)
    (hc : CommandInEnvelope s) (hl : isTransmitSeq s.seq = true → PayloadInRange s) : LockOk s where
  host := by simp [hp, ho]
  sender i := by simp [hs i, ho]
  idle h := by rw [ho] at h; cases h
  sending i h := by rw [ho] at h; cases h
  body _ := hb
  command := hc
  payload := hl

/-- A sender holds it, in one of its phases COPY, SENDING and RELEASE. -/
theorem LockOk.of_sender {s : State} {i : Sid} (ho : s.lockOwner = .s i) (hp : s.host.pos ≠ .e3)
    (hi : phaseHolds (s.senders.get i).phase = true) (hs : ∀ j, j ≠ i → phaseHolds (s.senders.get j).phase = false)
    (hq : if (s.senders.get i).phase = .sending then isTransmitSeq s.seq = true ∧ PayloadInRange s else s.seq = .idle)
    (hc : CommandInEnvelope s) : LockOk s where
  host := by simp [hp, ho]
  sender j := by
    by_cases hj : j = i
    · subst hj
      simp [hi, ho]
    · simp [hs j hj, ho, Ne.symm hj]
  idle h := by rw [ho] at h; cases h
  sending j h := by
    obtain rfl : i = j := by simpa [ho] using h
    split at hq
    · next hphase => rw [if_pos hphase]; exact hq.1
    · next hphase => rw [if_neg hphase]; exact hq
  body h := by rw [ho] at h; cases h
  command := hc
  payload h := by
    split at hq
    · exact hq.2
    · rw [hq] at h; cases h

theorem LockOk.pos_ne {s : State} (h : LockOk s) (ho : s.lockOwner ≠ .host) : s.host.pos ≠ .e3 :=
  fun e => ho (h.host.1 e)

/-- A sender that does not hold the lock is in none of the phases that do. -/
theorem LockOk.phase {s : State} (h : LockOk s) {i : Sid} (ho : s.lockOwner ≠ .s i) :
    phaseHolds (s.senders.get i).phase = false :=
  Bool.eq_false_iff.2 fun e => ho ((h.sender i).1 e)

/-- What a step outside the lock leaves: the lock, the sequencer, the payload's length, and which senders hold. -/
structure SameLock (s t : State) : Prop where
  cfg : t.cfg = s.cfg
  lockOwner : t.lockOwner = s.lockOwner
  seq : t.seq = s.seq
  len : t.pe.len = s.pe.len
  holds : ∀ i, phaseHolds (t.senders.get i).phase = phaseHolds (s.senders.get i).phase
  sending : ∀ i, (t.senders.get i).phase = .sending ↔ (s.senders.get i).phase = .sending

theorem LockOk.of_sameLock {s t : State} (h : LockOk s) (e : SameLock s t)
    (hp : t.host.pos = .e3 ↔ s.host.pos = .e3) (hcmd : s.lockOwner = .host → t.host.cmd = s.host.cmd)
    (hc : CommandInEnvelope t) : LockOk t where
  host := by rw [hp, e.lockOwner]; exact h.host
  sender i := by rw [e.holds, e.lockOwner]; exact h.sender i
  idle ho := e.seq.trans (h.idle (e.lockOwner.symm.trans ho))
  sending i ho := by
    simp only [e.sending, e.seq]
    exact h.sending i (e.lockOwner.symm.trans ho)
  body ho := by
    have ho := e.lockOwner.symm.trans ho
    rw [State.cmdIs, hcmd ho, e.seq]
    exact h.body ho
  command := hc
  payload hq := by
    rw [e.len, e.cfg]
    exact h.payload (e.seq ▸ hq)

theorem SameLock.of_senders {s t : State} (hc : t.cfg = s.cfg) (ho : t.lockOwner = s.lockOwner) (hq : t.seq = s.seq)
    (hp : t.pe = s.pe) (hs : t.senders = s.senders) : SameLock s t :=
  ⟨hc, ho, hq, congrArg PeRegs.len hp, fun i => by rw [hs], fun i => by rw [hs]⟩

/-! ## The first micro-step of a command -/

theorem bodySeq_startSeq {i : Instr} (hi : usesEnvelope i = true) : bodySeq i (startSeq i) = true := by
  cases i with
  | ismode | schstart | busRd | busWr => cases hi
  | _ => rfl

theorem isTransmitSeq_of_atOneOf {l : List Main} {q : Seq} (hq : atOneOf l q = true)
    (hl : ∀ m ∈ l, isTransmitSeq ⟨m, .none⟩ = false := by decide) : isTransmitSeq q = false := by
  obtain ⟨m, hm, rfl⟩ := atOneOf_iff.1 hq
  exact hl m hm

/-- Only TRANSMIT stands at a micro-step of the transmit procedure. -/
theorem isTransmitSeq_of_bodySeq {i : Instr} {q : Seq} (hi : ∀ len, i ≠ .transmit len) (hq : bodySeq i q = true) :
    isTransmitSeq q = false := by
  obtain ⟨m, b⟩ := q
  cases i with
  | transmit len => exact absurd rfl (hi len)
  | setmode c =>
    obtain rfl : m = .mCmd := by simpa using (Bool.and_eq_true_iff.1 hq).1
    rfl
  | init =>
    change isInitSeq _ = true at hq
    unfold isInitSeq at hq
    split at hq
    case h_7 => cases hq
    all_goals simp_all [isTransmitSeq]
  | receive =>
    change isReceiveSeq _ = true at hq
    unfold isReceiveSeq at hq
    split at hq
    case h_11 => cases hq
    all_goals simp_all [isTransmitSeq]
  | ismode | schstart | busRd | busWr => cases hq
  | _ => exact isTransmitSeq_of_atOneOf hq

/-- Of the bodies only TRANSMIT's is at the transmit procedure, and it asks the payload to fit. -/
theorem payloadFits.inRange {c : Config} {i : Instr} {q : Seq} {n : Byte} (hn : payloadFits c i n)
    (hq : bodySeq i q = true) (ht : isTransmitSeq q = true) : 1 ≤ n.toNat ∧ n.toNat ≤ c.maxPayload := by
  by_cases hi : ∃ len, i = .transmit len
  · obtain ⟨len, rfl⟩ := hi
    exact hn
  · rw [isTransmitSeq_of_bodySeq (not_exists.1 hi) hq] at ht
    cases ht

/-- The argument check of TRANSMIT lets a length through that fits its register (43_packet_engine.md R211). -/
theorem peAtStart_fits {s : State} {i : Instr} (hw : s.cfg.wf = true) (hc : argCheck s.cfg i = none) :
    payloadFits s.cfg i (peAtStart s i).len := by
  cases i with
  | transmit len =>
    have hmax := Config.maxPayload_le hw
    have hlen : ¬ (len.toNat = 0 ∨ s.cfg.maxPayload < len.toNat) := fun hn => by
      simp [argCheck, payloadCheck, hn] at hc
    have hbyte : (len.setWidth 8).toNat = len.toNat := by
      rw [BitVec.toNat_setWidth, Nat.mod_eq_of_lt (by omega)]
    show 1 ≤ (len.setWidth 8).toNat ∧ (len.setWidth 8).toNat ≤ s.cfg.maxPayload
    omega
  | _ => trivial

theorem peAtStart_buf_length {s : State} (h : BuffersOk s) (i : Instr) :
    (peAtStart s i).buf.length = s.pe.buf.length := by
  have hfits : ∀ n, (s.host.hbuf.take n).length ≤ s.pe.buf.length := fun n => by
    rw [h.peBuf, ← h.hbuf]
    exact List.length_take_le' ..
  cases i with
  | wrburst a n => exact overlay_length (hfits _)
  | transmit len => exact overlay_length (hfits _)
  | _ => rfl

/-! ## The executor: before the lock -/

theorem freeBytes_length (d n : Nat) : (freeBytes d n).length = n := by simp [freeBytes]

/-- What a command adds on an error keeps the data. -/
theorem DataOk.onErr {s : State} (h : DataOk s) (c : Config) (i : Instr) (e : Err) :
    DataOk ((envelopeOf c i).onErr e s) := by
  cases i with
  | rdburst a n =>
    cases e with
    | busFault => exact h.write (hr := (freeBytes_length ..).trans h.buffers.rbuf.symm)
    | _ => exact h
  | receive => exact h.write
  | _ => exact h

theorem envelopeOf_onErr_cfg (c : Config) (i : Instr) (e : Err) (s : State) :
    ((envelopeOf c i).onErr e s).cfg = s.cfg := by
  cases i with
  | rdburst a n => cases e <;> rfl
  | _ => rfl

/-- A command that does not hold the lock may complete: the port is free again. -/
theorem Safe.completes {s t : State} (h : Safe s) (hp : s.host.pos ≠ .e3) (hd : DataOk t) (hpos : t.host.pos = .e0)
    (hcmd : t.host.cmd = s.host.cmd) (hl : SameLock s t) : Safe t :=
  hd.safe (h.lock.of_sameLock hl (by simp [hpos, hp]) (fun _ => hcmd) (.of_e0 hpos))

theorem failUnlocked_safe {s : State} (h : Safe s) (hp : s.host.pos ≠ .e3) (i : Instr) (e : Err) :
    Safe ((envelopeOf s.cfg i).failUnlocked e s) := by
  have hd : DataOk (s.raiseHost e) := h.dataOk.write
  have hx : ErrorExtras (s.raiseHost e) ((envelopeOf s.cfg i).failUnlocked e s) := envelopeOf_onErr s.cfg i e _
  exact h.completes hp (hd.onErr s.cfg i e) hx.pos hx.cmd
    (.of_senders (envelopeOf_onErr_cfg ..) hx.lockOwner hx.seq hx.pe hx.senders)

section
variable {s : State} (h : Safe s) {i : Instr} (hd : decodeCmd s.host.cmd = .ok i) (hi : usesEnvelope i = true)
include h hd hi

/-- E0 and E1: the argument check and the test of the bus come before the request for the lock. -/
theorem enter_safe (hp : s.host.pos = .e0) (hb : s.host.busy = true) : Safe ((envelopeOf s.cfg i).enter s) := by
  have hne : s.host.pos ≠ .e3 := by simp [hp]
  unfold Envelope.enter
  split
  · exact failUnlocked_safe h hne i _
  next hcheck =>
  rw [envelopeOf_check] at hcheck
  split
  · exact failUnlocked_safe h hne i _
  · refine h.dataOk.write.safe (h.lock.of_sameLock (.of_senders rfl rfl rfl rfl rfl) (by simp [hp]) (fun _ => rfl)
      fun _ => ⟨hb, ?_⟩)
    exact (State.cmdIs_of_decodeCmd hd _).trans (by simp [hi, hcheck])

/-- E2: the lock is taken with the sequencer at the first micro-step, or the command fails, or it waits on. -/
theorem await_safe {d : Option Word32} (hp : s.host.pos = .e2 d) : Safe ((envelopeOf s.cfg i).await d s) := by
  have hne : s.host.pos ≠ .e3 := by simp [hp]
  have hcommand := h.lock.command (by simp [hp])
  have hcheck : argCheck s.cfg i = none := by
    have := hcommand.2
    rw [State.cmdIs_of_decodeCmd hd] at this
    simpa [hi] using this
  unfold Envelope.await
  split
  · next ho =>
    split
    · exact failUnlocked_safe h hne i _
    · rw [envelopeOf_start hi, peAtStart_takeLock]
      refine (h.dataOk.write (hp := peAtStart_buf_length h.buffers i)).safe
        (.of_host rfl rfl (fun j => h.lock.phase (by simp [ho])) ?_ (fun _ => hcommand) fun ht => ?_)
      · exact (State.cmdIs_of_decodeCmd hd _).trans (bodySeq_startSeq hi)
      · exact (peAtStart_fits h.config hcheck).inRange (bodySeq_startSeq hi) ht
  · split
    · exact failUnlocked_safe h hne i _
    · exact h

/-! ## The executor: in the body -/

/-- A micro-step of the body goes on inside it, or ends the command with the lock free. -/
theorem bodyStep_safe (hp : s.host.pos = .e3) {t : State} (ht : exec i s = .next t) : Safe t := by
  have he := exec_effect ht
  have hsenders : t.senders = s.senders := he.senders (isSchstart_of_usesEnvelope hi)
  have ho : s.lockOwner = .host := h.lock.host.1 hp
  have hphase : ∀ j, phaseHolds (t.senders.get j).phase = false := fun j => by
    rw [hsenders]
    exact h.lock.phase (by simp [ho])
  have hq : bodySeq i s.seq = true := (s.cmdIs_of_decodeCmd hd _).symm.trans (h.lock.body ho)
  have hlen : payloadFits s.cfg i s.pe.len := by
    cases i with
    | transmit len => exact h.lock.payload hq
    | _ => trivial
  have hstay := envelopeOf_body_stays hi ⟨h.dataOk, hlen⟩
  have hend := envelopeOf_body_ends hi s
  rw [exec_at_e3 hi hp] at ht
  cases hm : (envelopeOf s.cfg i).body s with
  | cont u =>
    rw [hm] at ht hstay hend
    cases ht
    obtain ⟨hin, hat⟩ := hstay
    have hk : LockKept s t := hend
    have hdt : decodeCmd t.host.cmd = .ok i := he.port.cmd ▸ hd
    have hcommand := h.lock.command (by simp [hp])
    refine hin.toDataOk.safe (.of_host (hk.lockOwner.trans ho) (hk.pos.trans hp) hphase ?_ (fun _ => ?_) fun hx => ?_)
    · exact (State.cmdIs_of_decodeCmd hdt _).trans hat
    · rw [hk.busy, he.cfg, State.cmdIs, he.port.cmd]
      exact hcommand
    · rw [PayloadInRange, he.cfg]
      exact hin.len.inRange hat hx
  | done r u =>
    rw [hm] at ht hstay
    cases ht
    exact (DataOk.write (InBody.toDataOk hstay)).safe (.of_free rfl rfl nofun hphase (.of_e0 rfl))
  | raise e u =>
    rw [hm] at ht hstay
    cases ht
    have hx := envelopeOf_onErr s.cfg i e (u.endedErr e)
    have hdata : DataOk (u.endedErr e) := (InBody.toDataOk hstay).write
    have hpos : ((envelopeOf s.cfg i).onErr e (u.endedErr e)).host.pos = .e0 := hx.pos
    exact (hdata.onErr s.cfg i e).safe (.of_free hx.lockOwner hx.seq (by simp [hpos]) hphase (.of_e0 hpos))
  | fault f => rw [hm] at ht; cases ht
  | refused r => rw [hm] at ht; cases ht

end

end Sys2Proof.Machine
end

section
namespace Sys2Proof.Machine

/-! ## The executor -/

/-- A command without an envelope has not left E0. -/
theorem Safe.pos_of_not_envelope {s : State} (h : Safe s) (hn : s.cmdIs usesEnvelope = false) : s.host.pos = .e0 := by
  by_contra hp
  have hc := (h.lock.command hp).2
  unfold State.cmdIs at hc hn
  split at hc <;> simp_all

/-- A started sender held no lock and holds none. -/
theorem startSender_keeps (c : Config) (now : Word32) (mask : BitVec 5) (i : Sid) (r : Sender) :
    (startSender c now mask i r).buf = r.buf ∧
      phaseHolds (startSender c now mask i r).phase = phaseHolds r.phase ∧
      ((startSender c now mask i r).phase = .sending ↔ r.phase = .sending) := by
  unfold startSender
  split
  · next h => simp [h.2, phaseHolds]
  · exact ⟨rfl, rfl, .rfl⟩

theorem execSchstart_safe {s : State} (h : Safe s) (hp : s.host.pos = .e0) {mask : BitVec 5} {t : State}
    (ht : exec (.schstart mask) s = .next t) : Safe t := by
  cases ht
  have hget := fun i => congrArg Sender.phase (Five.get_imap (startSender s.cfg s.now mask) s.senders i)
  have hkeeps := fun i => startSender_keeps s.cfg s.now mask i (s.senders.get i)
  have hl : SameLock s (({ s with senders := s.senders.imap (startSender s.cfg s.now mask) } : State).finish codeOk
      (startedBits (s.senders.imap (startSender s.cfg s.now mask)))) :=
    ⟨rfl, rfl, rfl, rfl, fun i => (congrArg phaseHolds (hget i)).trans (hkeeps i).2.1,
      fun i => (Eq.congr_left (hget i)).trans (hkeeps i).2.2⟩
  refine h.completes (by simp [hp]) (h.dataOk.write (hv := fun i => ?_)) rfl rfl hl
  rw [Five.get_imap, (hkeeps i).1]

theorem executorStep_safe {s t : State} (h : Safe s) (ht : executorStep s = .next t) : Safe t := by
  unfold executorStep at ht
  split at ht
  case isFalse => cases ht; exact h
  next hb =>
  have completes : s.host.pos = .e0 → ∀ c r, Safe (s.finish c r) := fun hp c r =>
    h.completes (by simp [hp]) h.dataOk.write rfl rfl (.of_senders rfl rfl rfl rfl rfl)
  cases hd : decodeCmd s.host.cmd with
  | error e =>
    rw [hd] at ht
    cases ht
    exact completes (h.pos_of_not_envelope (by simp [State.cmdIs, hd])) _ _
  | ok i =>
    replace ht : exec i s = .next t := by rw [hd] at ht; exact ht
    by_cases hi : usesEnvelope i = true
    · cases hp : s.host.pos with
      | e0 => rw [exec_at_e0 hi hp] at ht; cases ht; exact enter_safe h hd hi hp hb
      | e2 d => rw [exec_at_e2 hi hp] at ht; cases ht; exact await_safe h hd hi hp
      | e3 => exact bodyStep_safe h hd hi hp ht
    · have hp : s.host.pos = .e0 := h.pos_of_not_envelope (by rw [State.cmdIs_of_decodeCmd hd]; simpa using hi)
      have hcmd := encodeCmd_of_decodeCmd hd
      cases i with
      | ismode m => cases ht; exact completes hp _ _
      | schstart m => exact execSchstart_safe h hp ht
      | busRd | busWr => cases hcmd
      | _ => exact absurd rfl hi

/-! ## The senders -/

theorem Five.set_get_self {α : Type} (v : Five α) (i : Sid) : v.set i (v.get i) = v := by cases i <;> rfl

theorem Config.recLen_fits {c : Config} (h : c.wf = true) (i : Sid) : 1 + c.recLen.get i ≤ c.maxPayload := by
  have hall : ∀ j ∈ allSids, c.recLenOk j = true := by
    simp only [Config.wf, Bool.and_eq_true, List.all_eq_true] at h
    tauto
  exact of_decide_eq_true (hall i (by cases i <;> decide))

section
variable {s : State} (h : Safe s) {i : Sid}
include h

/-- A sender's step may replace its buffer by one of its record's length. -/
theorem Safe.set_buf_length {r : Sender} (hr : r.buf.length = s.cfg.recLen.get i) (j : Sid) :
    ((s.senders.set i r).get j).buf.length = (s.senders.get j).buf.length := by
  rw [Five.get_set]
  split
  · next e => rw [e, hr, h.buffers.sBuf]
  · rfl

theorem Safe.owner_of_phase (hp : phaseHolds (s.senders.get i).phase = true) : s.lockOwner = .s i :=
  (h.lock.sender i).1 hp

/-- The other senders hold nothing if the lock is free or this sender's. -/
theorem Safe.others_idle (ho : s.lockOwner = .none ∨ s.lockOwner = .s i) (r : Sender) (j : Sid) (hj : j ≠ i) :
    phaseHolds ((s.senders.set i r).get j).phase = false := by
  rw [Five.get_set_other _ _ hj]
  refine h.lock.phase fun e => ?_
  rcases ho with ho | ho
  · rw [ho] at e; cases e
  · exact hj (by simpa [e] using ho)

/-- The agreement around the lock after a step of a sender that holds it from now on. -/
theorem Safe.lockOk_of_sender (ho : s.lockOwner = .none ∨ s.lockOwner = .s i) {t : State} {r : Sender}
    (hto : t.lockOwner = .s i) (hts : t.senders = s.senders.set i r) (hth : t.host = s.host) (htc : t.cfg = s.cfg)
    (hr : phaseHolds r.phase = true)
    (hq : if r.phase = .sending then isTransmitSeq t.seq = true ∧ PayloadInRange t else t.seq = .idle) : LockOk t := by
  have hi : t.senders.get i = r := by rw [hts, Five.get_set_same]
  have hpos : s.host.pos ≠ .e3 := h.lock.pos_ne (by rcases ho with ho | ho <;> simp [ho])
  refine .of_sender hto (hth ▸ hpos) (hi ▸ hr) (hts ▸ h.others_idle ho r) (hi ▸ hq) ?_
  rw [CommandInEnvelope, State.cmdIs, hth, htc]
  exact h.lock.command

/-- Between its turns a sender holds nothing: it falls asleep, wakes or skips (44_arbiter_scheduler.md R243, R245). -/
theorem putSender_safe (hp : phaseHolds (s.senders.get i).phase = false) {r : Sender}
    (hr : phaseHolds r.phase = false) (hb : r.buf = (s.senders.get i).buf := by rfl) : Safe (s.putSender i r) := by
  have hget : ∀ j, phaseHolds ((s.senders.set i r).get j).phase = phaseHolds (s.senders.get j).phase ∧
      (((s.senders.set i r).get j).phase = .sending ↔ (s.senders.get j).phase = .sending) := fun j => by
    rw [Five.get_set]
    split
    · next e =>
      subst e
      refine ⟨hr.trans hp.symm, fun e => ?_, fun e => ?_⟩
      · rw [e] at hr; cases hr
      · rw [e] at hp; cases hp
    · exact ⟨rfl, .rfl⟩
  exact (h.dataOk.write (hv := h.set_buf_length (hb ▸ h.buffers.sBuf i))).safe
    (h.lock.of_sameLock ⟨rfl, rfl, rfl, rfl, fun j => (hget j).1, fun j => (hget j).2⟩ .rfl (fun _ => rfl)
      h.lock.command)

theorem senderWake_safe (hp : (s.senders.get i).phase = .sleeping) : Safe (senderWake i s) := by
  dsimp only [senderWake]
  split
  · exact putSender_safe h (by rw [hp]; rfl) rfl
  · exact h

theorem senderWaitlock_safe (hp : (s.senders.get i).phase = .waitlock) (k : Bool) : Safe (senderWaitlock i k s) := by
  unfold senderWaitlock
  split
  · next ho =>
    have hd : DataOk (senderAcquire i s) := h.dataOk.write (hv := h.set_buf_length (h.buffers.sBuf i))
    exact hd.safe (h.lockOk_of_sender (.inl ho.1) rfl rfl rfl rfl rfl (h.lock.idle ho.1))
  · split
    · exact putSender_safe h (by rw [hp]; rfl) rfl
    · exact h

/-- COPY loads a payload one byte longer than the record, which fits (00_scope.md R8). -/
theorem senderCopy_safe (hp : (s.senders.get i).phase = .copy) : Safe (senderCopy i s) := by
  have ho := h.owner_of_phase (i := i) (by rw [hp]; rfl)
  have hfits := Config.recLen_fits h.config i
  have hmax := Config.maxPayload_le h.config
  have hload : (s.cfg.pktId.get i :: s.snap.get i).length ≤ s.pe.buf.length := by
    rw [h.buffers.peBuf, List.length_cons, h.buffers.snap]
    omega
  have hd : DataOk (senderCopy i s) :=
    h.dataOk.write (hp := overlay_length hload) (hv := h.set_buf_length (h.buffers.snap i))
  have hlen : (BitVec.ofNat 8 (1 + s.cfg.recLen.get i)).toNat = 1 + s.cfg.recLen.get i := by
    rw [BitVec.toNat_ofNat, Nat.mod_eq_of_lt (by omega)]
  have hrange : PayloadInRange (senderCopy i s) := by
    show 1 ≤ (BitVec.ofNat 8 _).toNat ∧ (BitVec.ofNat 8 _).toNat ≤ s.cfg.maxPayload
    rw [hlen]
    omega
  exact hd.safe (h.lockOk_of_sender (.inr ho) ho rfl rfl rfl rfl ⟨rfl, hrange⟩)

theorem senderSend_safe (hp : (s.senders.get i).phase = .sending) {k : Bool} {t : State}
    (ht : senderStep i k s = .next t) : Safe t := by
  have ho := h.owner_of_phase (i := i) (by rw [hp]; rfl)
  have hq : isTransmitSeq s.seq = true := by simpa [hp] using h.lock.sending i ho
  have hstay := peTransmit_stays (len := payloadFits s.cfg (.transmit 0)) ⟨h.dataOk, h.lock.payload hq⟩
  have hmicro := peTransmit_effect (w := .onlyShadow) rfl s
  have hsend := senderStep_sendStep hp ht
  have hto : t.lockOwner = .s i := hsend.keeps.1.trans ho
  have heff := senderStep_effect ht
  have ended : ∀ {u : State} {c : Byte}, DataOk u → u.senders = s.senders → t = u.sendEnded i c → Safe t := by
    intro u c hd hs e
    have hts : t.senders = s.senders.set i { s.senders.get i with status := c, phase := .release } := by
      rw [e, ← hs]
      rfl
    have hdata : DataOk t := by
      subst e
      refine hd.write (hv := fun j => ?_)
      rw [Five.get_set]
      split
      · next e => rw [e]
      · rfl
    exact hdata.safe (h.lockOk_of_sender (.inr ho) hto hts heff.host heff.cfg rfl (by rw [e]; rfl))
  cases hsend with
  | faulted hf => exact ended h.dataOk rfl rfl
  | goesOn t hm =>
    rw [hm] at hstay hmicro
    obtain ⟨hin, hat⟩ := hstay
    have hts : t.senders = s.senders.set i (s.senders.get i) := hmicro.senders.trans (Five.set_get_self ..).symm
    refine hin.toDataOk.safe (h.lockOk_of_sender (.inr ho) hto hts heff.host heff.cfg (by rw [hp]; rfl) ?_)
    rw [if_pos hp, PayloadInRange, heff.cfg]
    exact ⟨hat, hin.len⟩
  | returns r u hm =>
    rw [hm] at hstay hmicro
    exact ended (InBody.toDataOk hstay) (MicroEffect.senders hmicro) rfl
  | raises e u hm =>
    rw [hm] at hstay hmicro
    exact ended (InBody.toDataOk hstay) (MicroEffect.senders hmicro) rfl

theorem senderRelease_safe (hp : (s.senders.get i).phase = .release) : Safe (senderRelease i s) := by
  have ho := h.owner_of_phase (i := i) (by rw [hp]; rfl)
  have hq : s.seq = .idle := by simpa [hp] using h.lock.sending i ho
  have hd : DataOk (senderRelease i s) := h.dataOk.write (hv := h.set_buf_length (h.buffers.sBuf i))
  refine hd.safe (.of_free rfl hq (h.lock.pos_ne (by simp [ho])) (fun j => ?_) h.lock.command)
  by_cases hj : j = i
  · subst hj
    exact congrArg (phaseHolds ∘ Sender.phase) (Five.get_set_same ..)
  · exact h.others_idle (.inr ho) _ j hj

theorem senderStep_safe {k : Bool} {t : State} (ht : senderStep i k s = .next t) : Safe t := by
  cases hp : (s.senders.get i).phase with
  | sending => exact senderSend_safe h hp ht
  | off => rw [senderStep, hp] at ht; cases ht; exact h
  | sleeping => rw [senderStep, hp] at ht; cases ht; exact senderWake_safe h hp
  | waitlock => rw [senderStep, hp] at ht; cases ht; exact senderWaitlock_safe h hp k
  | copy => rw [senderStep, hp] at ht; cases ht; exact senderCopy_safe h hp
  | release => rw [senderStep, hp] at ht; cases ht; exact senderRelease_safe h hp

end

/-! ## The agents outside the bus, and the reset input -/

section
variable {s : State} (h : Safe s)
include h

theorem Safe.of_onlyDevice {t : State} (ht : OnlyDevice s t) (hm : MemoryOk t) : Safe t := by
  obtain ⟨d, l, p, rfl⟩ := ht
  exact
    { config := h.config
      memory := hm
      buffers := ⟨h.buffers.hbuf, h.buffers.rbuf, h.buffers.peBuf, h.buffers.sBuf, h.buffers.snap⟩
      lock := h.lock.of_sameLock (.of_senders rfl rfl rfl rfl rfl) .rfl (fun _ => rfl) h.lock.command
      lines := ⟨h.lines.sel, h.lines.devRst, h.lines.bracket⟩ }

theorem devTxDone_safe : Safe (devTxDone s) := by
  refine h.of_onlyDevice (devTxDone_onlyDevice s) ?_
  dsimp only [devTxDone]
  split
  · have hf : MemoryOk (s.raiseFlags flagTxDone) := h.memory.setFlags _
    split
    · exact hf.putReg ..
    · exact hf
  · exact h.memory

theorem devRxDone_safe (a : Byte) (bytes : List Byte) (ok : Bool) : Safe (devRxDone a bytes ok s) := by
  refine h.of_onlyDevice (devRxDone_onlyDevice a bytes ok s) ?_
  have hsize : 0 < s.cfg.fifoSize := by
    have hw := h.config
    simp only [Config.wf, Config.fifoSizeOk, Bool.and_eq_true, decide_eq_true_eq] at hw
    tauto
  dsimp only [devRxDone]
  split
  · exact (((h.memory.fifoWrite (Nat.mod_lt _ hsize) bytes).putReg ..).putReg ..).setFlags _
  · exact h.memory

theorem devModeGlitch_safe (v : Byte) : Safe (devModeGlitch v s) := by
  refine h.of_onlyDevice (devModeGlitch_onlyDevice v s) ?_
  unfold devModeGlitch
  split
  · exact h.memory.putReg ..
  · exact h.memory

theorem devFlag_safe (b : BitVec 3) : Safe (devFlag b s) := by
  refine h.of_onlyDevice (devFlag_onlyDevice b s) ?_
  unfold devFlag
  split
  · exact h.memory.setFlags _
  · exact h.memory

/-- The host presents a command to a free port: no command is past E0 there. -/
theorem hostPresent_safe (w : CmdWord) : Safe (hostPresent w s) := by
  unfold hostPresent
  split
  · exact h
  next hb =>
  have hp : s.host.pos = .e0 := by
    by_contra hp
    exact hb (h.lock.command hp).1
  have hfree : s.lockOwner ≠ .host := fun ho => by simpa [hp] using h.lock.host.2 ho
  exact h.dataOk.write.safe
    (h.lock.of_sameLock (.of_senders rfl rfl rfl rfl rfl) (by simp [hp]) (fun ho => absurd ho hfree) (.of_e0 rfl))

theorem hostWriteBuf_safe (k : Byte) (bytes : List Byte) : Safe (hostWriteBuf k bytes s) := by
  unfold hostWriteBuf
  split
  · exact h
  next hfits =>
  have hlen : (spliceAt s.host.hbuf k.toNat bytes).length = s.host.hbuf.length := by
    have := h.buffers.hbuf
    simp only [spliceAt, List.length_append, List.length_take, List.length_drop]
    omega
  exact (h.dataOk.write (hh := hlen)).safe
    (h.lock.of_sameLock (.of_senders rfl rfl rfl rfl rfl) .rfl (fun _ => rfl) h.lock.command)

theorem snapWrite_safe (i : Sid) (bytes : List Byte) : Safe (snapWrite i bytes s) := by
  unfold snapWrite
  split
  · next hl =>
    have hsnap : ∀ j, ((s.snap.set i bytes).get j).length = s.cfg.recLen.get j := fun j => by
      rw [Five.get_set]
      split
      · next e => rw [e, hl]
      · exact h.buffers.snap j
    exact
      { config := h.config
        memory := h.memory.of_eq rfl rfl
        buffers := ⟨h.buffers.hbuf, h.buffers.rbuf, h.buffers.peBuf, h.buffers.sBuf, hsnap⟩
        lock := h.lock.of_sameLock (.of_senders rfl rfl rfl rfl rfl) .rfl (fun _ => rfl) h.lock.command
        lines := ⟨h.lines.sel, h.lines.devRst, h.lines.bracket⟩ }
  · exact h

theorem clockTick_safe : Safe (clockTick s) where
  config := h.config
  memory := h.memory.of_eq rfl rfl
  buffers := ⟨h.buffers.hbuf, h.buffers.rbuf, h.buffers.peBuf, h.buffers.sBuf, h.buffers.snap⟩
  lock := h.lock.of_sameLock (.of_senders rfl rfl rfl rfl rfl) .rfl (fun _ => rfl) h.lock.command
  lines := ⟨h.lines.sel, h.lines.devRst, h.lines.bracket⟩

/-- The reset input frees the lock and turns every sender off; the device keeps its memories. -/
theorem blockReset_safe : Safe (blockReset s) where
  config := h.config
  memory := h.memory.of_eq rfl rfl
  buffers :=
    { hbuf := freeBytes_length ..
      rbuf := freeBytes_length ..
      peBuf := freeBytes_length ..
      sBuf := fun i => by cases i <;> exact freeBytes_length ..
      snap := fun i => by cases i <;> exact List.length_replicate }
  lock := .of_free rfl rfl nofun (fun i => by cases i <;> rfl) (.of_e0 rfl)
  lines := ⟨fun _ => rfl, rfl, rfl⟩

/-! ## One step -/

theorem runEvent_safe {e : Event} {t : State} (ht : runEvent e s = .next t) : Safe t := by
  cases e with
  | exec f => exact executorStep_safe (h.moved s.env s.drawn f) ht
  | sender i k f => exact senderStep_safe (h.moved s.env s.drawn f) ht
  | devTxDone => cases ht; exact devTxDone_safe h
  | devRxDone a bytes ok => cases ht; exact devRxDone_safe h a bytes ok
  | devModeGlitch v => cases ht; exact devModeGlitch_safe h v
  | devFlag b => cases ht; exact devFlag_safe h b
  | present w => cases ht; exact hostPresent_safe h w
  | hbufWrite k bytes => cases ht; exact hostWriteBuf_safe h k bytes
  | snapWrite i bytes => cases ht; exact snapWrite_safe h i bytes
  | tick => cases ht; exact clockTick_safe h
  | rst => cases ht; exact blockReset_safe h

end

/-- Settles O58: a safe state has no open bracket, so the step is the move of one agent, each of which keeps it safe. -/
theorem stepKeepsSafe : Obligations.StepKeepsSafe := by
  unfold Obligations.StepKeepsSafe
  intro s t h ht
  rw [step, h.lines.bracket] at ht
  exact runEvent_safe (nextEvent_safe h).1 ht

end Sys2Proof.Machine
end

section
namespace Sys2Proof.Machine

/-! The moves around the block: errors found at once, the clock, and the device's own events. -/

/-! ## Errors found at once -/

theorem executorStep_of_illegal {s : State} (hb : s.host.busy = true) (hi : ∀ i, decodeCmd s.host.cmd ≠ .ok i) :
    executorStep s = .next (s.raiseHost .illegalCommand) := by
  rw [executorStep, if_pos hb]
  cases hd : decodeCmd s.host.cmd with
  | ok i => exact absurd hd (hi i)
  | error e => rfl

/-- Settles O6: the rows of the table are the words the decoder accepts, so the executor raises the error. -/
theorem illegalCommandFinishesAtOnce : Obligations.IllegalCommandFinishesAtOnce := by
  unfold Obligations.IllegalCommandFinishesAtOnce
  intro s f rest h hb hrows
  have hillegal : ∀ i, decodeCmd s.host.cmd ≠ .ok i := fun i hd => by
    obtain ⟨r, hr, hm⟩ := (decodeCmd_ok_iff_tableRows s.host.cmd).1 ⟨i, hd⟩
    exact hrows r hr hm
  rw [step_nextMove h]
  exact executorStep_of_illegal (s := { s with env := rest, busFails := f }) hb hillegal

/-- Settles O32: E0 tests the length before the bus. -/
theorem invalidPayloadRejectedFirst : Obligations.InvalidPayloadRejectedFirst := by
  unfold Obligations.InvalidPayloadRejectedFirst
  intro s len hp hlen
  have hcheck : (envelopeOf s.cfg (.transmit len)).check = some .invalidPayload := if_pos hlen
  rw [exec_at_e0 rfl hp, Envelope.enter, hcheck]
  rfl

/-! ## The clock -/

/-- Settles O49: adding one to a word is adding one to its number modulo 2^32. -/
theorem clockTicks : Obligations.ClockTicks := by
  unfold Obligations.ClockTicks
  intro s rest h
  have hnow : s.now + 1 = BitVec.ofNat 32 ((s.now.toNat + 1) % 2 ^ 32) := by
    apply BitVec.eq_of_toNat_eq
    rw [BitVec.toNat_add, BitVec.toNat_ofNat, Nat.mod_mod]
    rfl
  rw [step_nextMove h, ← hnow]
  rfl

end Sys2Proof.Machine
end

section
namespace Sys2Proof.Machine

/-! The interrupt line: who observes it, and what the device's own events do (60_exceptions.md R279, R280). -/

/-! ## Observations of the line -/

/-- The line has been observed exactly if the flags register has changed (R280, log 13). -/
def Observed (s t : State) : Prop := (t.irqLatch, t.irqPrev) = s.edgesAfter t.flags

/-- The flags register, the latch and the remembered level are as before. -/
structure SameLine (s t : State) : Prop where
  flags : t.flags = s.flags
  latch : t.irqLatch = s.irqLatch
  prev : t.irqPrev = s.irqPrev

theorem SameLine.of_dev {s t : State} (hc : t.cfg = s.cfg := by rfl) (hd : t.dev = s.dev := by rfl)
    (hl : t.irqLatch = s.irqLatch := by rfl) (hp : t.irqPrev = s.irqPrev := by rfl) : SameLine s t :=
  ⟨by rw [State.flags, State.flags, State.devReg, State.devReg, hc, hd], hl, hp⟩

theorem sameLine_putReg (s : State) {a : Addr} (v : Byte) (h : a ≠ s.cfg.aIrqFlags) : SameLine s (s.putReg a v) :=
  ⟨s.devReg_putReg_other v h, rfl, rfl⟩

theorem SameLine.edgesAfter {s t : State} (h : SameLine s t) (v : Byte) : t.edgesAfter v = s.edgesAfter v := by
  rw [State.edgesAfter, State.edgesAfter, h.flags, h.latch, h.prev]

theorem SameLine.observed {s t : State} (h : SameLine s t) : Observed s t := by
  rw [Observed, State.edgesAfter, if_pos h.flags, h.latch, h.prev]

theorem Observed.andSame {s t u : State} (h : Observed s t) (g : SameLine t u) : Observed s u := by
  rw [Observed, g.latch, g.prev, g.flags]
  exact h

theorem SameLine.andObserved {s t u : State} (h : SameLine s t) (g : Observed t u) : Observed s u := by
  rw [Observed, ← h.edgesAfter]
  exact g

theorem observed_setFlags (s : State) (v : Byte) : Observed s (s.setFlags v) := by
  rw [Observed, s.flags_setFlags]
  exact s.edges_setFlags v

theorem Observed.rfl' (s : State) : Observed s s := SameLine.observed .of_dev

/-- An observation after the device has been touched looks at the flags it has now. -/
theorem observed_observeIrq {s t : State} (hl : t.irqLatch = s.irqLatch) (hp : t.irqPrev = s.irqPrev)
    (hf : t.flags ≠ s.flags) : Observed s t.observeIrq := by
  have hflags : t.observeIrq.flags = t.flags := rfl
  rw [Observed, hflags, State.edgesAfter, if_neg hf, ← hl, ← hp]
  rfl

/-! ## The device's own events -/

theorem Config.fifoSize_pos {c : Config} (h : c.wf = true) : 0 < c.fifoSize := by
  simp only [Config.wf, Config.fifoSizeOk, Bool.and_eq_true, decide_eq_true_eq] at h
  tauto

theorem devTxDone_observed {s : State} (hw : s.cfg.wf = true) : Observed s (devTxDone s) := by
  have hne : s.cfg.aOpmode ≠ s.cfg.aIrqFlags := Config.named_ne hw 1 10 (by decide)
  have hset : Observed s (s.raiseFlags flagTxDone) := observed_setFlags s _
  dsimp only [devTxDone]
  split
  · split
    · exact hset.andSame (sameLine_putReg _ _ (by simpa using hne))
    · exact hset
  · exact .rfl' s

/-- Settles O45: the registers are those of the engine's view of the event, the line is observed. -/
theorem txDoneEvent : Obligations.TxDoneEvent := by
  unfold Obligations.TxDoneEvent
  intro s hw
  refine ⟨fun hm => if_neg hm, fun hm => ?_⟩
  have hview := devTxDone_engineView hm
  have hreg : ∀ a, (devTxDone s).devReg a =
      if a = s.cfg.aOpmode then s.engineView.sentByte s.cfg
      else if a = s.cfg.aIrqFlags then s.flags ||| flagTxDone
      else s.devReg a :=
    fun a => (State.devReg_of_engineView hview a).trans (txDone_regs hw s.engineView a)
  have hne : s.cfg.aIrqFlags ≠ s.cfg.aOpmode := Config.named_ne hw 10 1 (by decide)
  have hfifo : (devTxDone s).dev.fifo = s.dev.fifo := congrArg EngineView.fifo hview
  have hline := devTxDone_observed hw
  obtain ⟨d, l, p, honly⟩ := devTxDone_onlyDevice s
  have hflags : (devTxDone s).flags = s.flags ||| 0x08 := by
    have hcfg : (devTxDone s).cfg = s.cfg := by rw [honly]
    rw [State.flags, hcfg, hreg, if_neg hne, if_pos rfl]
    rfl
  refine ⟨hflags, ?_, fun a ha hb => ?_, State.devFifo_congr hfifo, by rw [honly], by rw [honly], by rw [honly], ?_⟩
  · rw [hreg, if_pos rfl]
    rfl
  · rw [hreg, if_neg hb, if_neg ha]
  · rw [hline, hflags]

/-- A packet has landed: its bytes in the FIFO, where it starts and how long it is in the two registers (R285). -/
def State.packetStored (s : State) (a : Byte) (bytes : List Byte) : State :=
  let t : State :=
    { s with dev := { s.dev with fifo := fifoWrite s.cfg.fifoSize s.dev.fifo (a.toNat % s.cfg.fifoSize) bytes } }
  (t.putReg s.cfg.aFifoRxCurrent a).putReg s.cfg.aRxNbBytes (BitVec.ofNat 8 bytes.length)

theorem devRxDone_enabled {s : State} {a : Byte} {bytes : List Byte} {ok : Bool}
    (hm : s.devMode = modeRxCont ∨ s.devMode = modeRxSingle) (hn : bytes.length ≤ 255) :
    devRxDone a bytes ok s = (s.packetStored a bytes).raiseFlags (rxFlags ok) := if_pos ⟨hm, hn⟩

theorem devReg_packetStored (s : State) (a : Byte) (bytes : List Byte) (b : Addr) :
    (s.packetStored a bytes).devReg b =
      if s.cfg.aRxNbBytes = b then BitVec.ofNat 8 bytes.length
      else if s.cfg.aFifoRxCurrent = b then a
      else s.devReg b := by
  rw [State.packetStored, State.devReg_putReg, State.devReg_putReg]
  rfl

theorem sameLine_packetStored {s : State} (hw : s.cfg.wf = true) (a : Byte) (bytes : List Byte) :
    SameLine s (s.packetStored a bytes) where
  flags := by
    have h₁ : s.cfg.aRxNbBytes ≠ s.cfg.aIrqFlags := Config.named_ne hw 11 10 (by decide)
    have h₂ : s.cfg.aFifoRxCurrent ≠ s.cfg.aIrqFlags := Config.named_ne hw 9 10 (by decide)
    exact (devReg_packetStored s a bytes _).trans ((if_neg h₁).trans (if_neg h₂))
  latch := rfl
  prev := rfl

theorem devRxDone_observed {s : State} (hw : s.cfg.wf = true) (a : Byte) (bytes : List Byte) (ok : Bool) :
    Observed s (devRxDone a bytes ok s) := by
  by_cases h : (s.devMode = modeRxCont ∨ s.devMode = modeRxSingle) ∧ bytes.length ≤ 255
  · rw [devRxDone_enabled h.1 h.2]
    exact (sameLine_packetStored hw a bytes).andObserved (observed_setFlags ..)
  · rw [devRxDone, if_neg h]
    exact .rfl' s

/-- Settles O46: the packet is stored as a FIFO write from the drawn address on, then the flags are raised. -/
theorem rxDoneEvent : Obligations.RxDoneEvent := by
  unfold Obligations.RxDoneEvent
  intro s a bytes ok hw hn
  refine ⟨fun h₅ h₆ => if_neg fun h => h.1.elim h₅ h₆, fun hm => ?_⟩
  have hline := devRxDone_observed hw a bytes ok
  have h₁ : s.cfg.aIrqFlags ≠ s.cfg.aFifoRxCurrent := Config.named_ne hw 10 9 (by decide)
  have h₂ : s.cfg.aIrqFlags ≠ s.cfg.aRxNbBytes := Config.named_ne hw 10 11 (by decide)
  have h₃ : s.cfg.aRxNbBytes ≠ s.cfg.aFifoRxCurrent := Config.named_ne hw 11 9 (by decide)
  have hsize : a.toNat % s.cfg.fifoSize < s.cfg.fifoSize := Nat.mod_lt _ (Config.fifoSize_pos hw)
  have hcell : ∀ k, (a.toNat + k) % s.cfg.fifoSize = (a.toNat % s.cfg.fifoSize + k) % s.cfg.fifoSize :=
    fun k => (Nat.mod_add_mod ..).symm
  have hraised : (if ok then 0x40 else 0x60 : Byte) = rxFlags ok := by cases ok <;> rfl
  have hflags : (devRxDone a bytes ok s).flags = s.flags ||| rxFlags ok := by
    rw [devRxDone_enabled hm hn, State.raiseFlags, State.flags_setFlags, (sameLine_packetStored hw a bytes).flags]
  have hreg : ∀ b, s.cfg.aIrqFlags ≠ b → (devRxDone a bytes ok s).devReg b = (s.packetStored a bytes).devReg b :=
    fun b hb => by rw [devRxDone_enabled hm hn]; exact State.devReg_setFlags_other _ _ hb
  have hfifo : (devRxDone a bytes ok s).dev.fifo =
      fifoWrite s.cfg.fifoSize s.dev.fifo (a.toNat % s.cfg.fifoSize) bytes := by
    rw [devRxDone_enabled hm hn, State.raiseFlags_vals]
    rfl
  rw [hraised]
  refine ⟨hflags, ?_, ?_, fun b hi hc hb => ?_, fun hfits k hk => ?_, fun c hc => ?_, by rw [hline, hflags]⟩
  · rw [hreg _ h₁, devReg_packetStored, if_neg h₃, if_pos rfl]
  · rw [hreg _ h₂, devReg_packetStored, if_pos rfl, BitVec.toNat_ofNat]
    exact Nat.mod_eq_of_lt (by omega)
  · rw [hreg b hi.symm, devReg_packetStored, if_neg hb.symm, if_neg hc.symm]
  · rw [State.devFifo, hfifo, hcell]
    exact fifoWrite_same bytes _ hsize hfits hk
  · rw [State.devFifo, hfifo]
    exact fifoWrite_other bytes _ hsize fun k hk => hcell k ▸ hc k hk

end Sys2Proof.Machine
end

section
namespace Sys2Proof.Machine

/-! What a step does to the interrupt line and to the two bounded counters, whatever agent moves (60_exceptions.md R280,
R293). -/

/-! ## A step and the interrupt line -/

/-- What a step may do to the flags register, the latch and the level: it observes a change of the register, after which
T_CLR clears the latch; without a change a wait may consume the latch, and INIT's pulse observes the flags at 0. -/
structure LineEffect (s t : State) : Prop where
  latched : t.irqLatch = true → s.irqLatch = true ∨ (t.flags ≠ s.flags ∧ t.flags &&& 0x48 ≠ 0 ∧ s.irqPrev = false)
  edge : t.flags ≠ s.flags → t.flags &&& 0x48 ≠ 0 → s.irqPrev = false → s.seq ≠ ⟨.tClr, .none⟩ → t.irqLatch = true
  level : t.flags ≠ s.flags → t.irqPrev = (t.flags &&& 0x48 != 0)
  kept : t.flags = s.flags → t.irqPrev = s.irqPrev ∨ (t.flags = 0 ∧ t.irqPrev = false)

theorem Observed.lineEffect {s t : State} (h : Observed s t) : LineEffect s t := by
  unfold Observed State.edgesAfter at h
  split at h
  · next hf =>
    obtain ⟨hl, hp⟩ := Prod.mk.inj h
    exact ⟨fun e => .inl (hl ▸ e), fun hn => absurd hf hn, fun hn => absurd hf hn, fun _ => .inl hp⟩
  · next hf =>
    obtain ⟨hl, hp⟩ := Prod.mk.inj h
    refine ⟨fun e => ?_, fun _ hv hlow _ => ?_, fun _ => hp, fun e => absurd e hf⟩
    · rw [hl] at e
      simpa [hf] using e
    · rw [hl, hlow, bne_iff_ne.2 hv]; exact Bool.or_true _

theorem LineEffect.rfl' (s : State) : LineEffect s s := (Observed.rfl' s).lineEffect

theorem LineEffect.andSame {s t u : State} (h : LineEffect s t) (g : SameLine t u) : LineEffect s u := by
  constructor <;> rw [g.flags]
  · rw [g.latch]; exact h.latched
  · rw [g.latch]; exact h.edge
  · rw [g.prev]; exact h.level
  · rw [g.prev]; exact h.kept

/-- T_CLR clears the latch after its transaction (43_packet_engine.md R212). -/
theorem LineEffect.cleared {s t : State} (h : LineEffect s t) (hq : s.seq = ⟨.tClr, .none⟩) :
    LineEffect s { t with irqLatch := false } :=
  ⟨nofun, fun _ _ _ hn => absurd hq hn, h.level, h.kept⟩

/-- Block-side work at the beginning of a micro-step: the working registers, and the latch as a wait consumes it. -/
structure Prelude (s u : State) : Prop where
  seq : u.seq = s.seq
  flags : u.flags = s.flags
  prev : u.irqPrev = s.irqPrev
  latch : u.irqLatch = true → s.irqLatch = true

theorem Prelude.rfl' (s : State) : Prelude s s := ⟨rfl, rfl, rfl, id⟩

theorem Prelude.lineEffect {s u t : State} (h : Prelude s u) (g : LineEffect u t) : LineEffect s t := by
  constructor <;> rw [← h.flags]
  · rw [← h.prev]; exact fun e => (g.latched e).imp_left h.latch
  · rw [← h.prev, ← h.seq]; exact g.edge
  · exact g.level
  · rw [← h.prev]; exact g.kept

/-- INIT's pulse leaves the flags at 0 and the line low, observed (R287). -/
theorem initPulse_lineEffect (s : State) : LineEffect s s.initPulse := by
  have hflags : s.initPulse.flags = 0 := State.devReg_putReg_same ..
  have hprev : s.initPulse.irqPrev = false := by
    show (s.drawDevice.putReg s.cfg.aIrqFlags 0).devIrq = false
    have h : (s.drawDevice.putReg s.cfg.aIrqFlags 0).flags = 0 := hflags
    rw [State.devIrq, h]
    rfl
  refine ⟨nofun, fun _ hv => absurd ?_ hv, fun _ => ?_, fun _ => .inr ⟨hflags, hprev⟩⟩
  · rw [hflags]; rfl
  · rw [hflags, hprev]; rfl

/-! ## The bounded counters -/

/-- The two bounds of R293 (e) and (f). -/
def CountersBounded (s : State) : Prop := PollBounded s ∧ AttemptsBounded s

/-- The main steps of the completion waits (43_packet_engine.md R213). -/
def waits : Main → Bool
  | .tWait | .rWait => true
  | _ => false

/-- The bounds speak of four elements only. -/
theorem CountersBounded.congr {s t : State} (h : CountersBounded s) (hc : t.cfg = s.cfg) (hq : t.seq = s.seq)
    (hp : t.pe = s.pe) : CountersBounded t := by
  unfold CountersBounded PollBounded AttemptsBounded
  rw [hc, hq, hp]
  exact h

theorem attemptsBounded_of_main {s : State} (hq : s.seq.sub = .none) : AttemptsBounded s := by
  intro h
  simp [inRetry, hq] at h

/-- Outside the waits and the mode transitions nothing is bounded. -/
theorem CountersBounded.of_main {s : State} {m : Main} (hq : s.seq = ⟨m, .none⟩) (hm : waits m = false) :
    CountersBounded s := by
  refine ⟨fun _ h => ?_, attemptsBounded_of_main (by rw [hq])⟩
  rw [hq] at h
  rcases h with h | h
  · cases h; cases hm
  · cases h; cases hm

/-- In a mode transition only the attempts are bounded, and only if it is retried. -/
theorem CountersBounded.of_transition {s : State} (hq : s.seq.sub ≠ .none)
    (h : s.seq.main ≠ .mCmd →
      if s.seq.sub = .mRd then s.pe.attempt.toNat < s.cfg.modeAttempts.toNat
      else s.pe.attempt.toNat ≤ s.cfg.modeAttempts.toNat) : CountersBounded s := by
  refine ⟨fun _ hw => ?_, fun hr => h ?_⟩
  · rcases hw with hw | hw <;> exact absurd (congrArg Seq.sub hw) hq
  · simp only [inRetry, Bool.and_eq_true, bne_iff_ne] at hr
    exact hr.2

theorem CountersBounded.attempts {s : State} (h : CountersBounded s) (hq : s.seq.sub ≠ .none)
    (hm : s.seq.main ≠ .mCmd) :
    if s.seq.sub = .mRd then s.pe.attempt.toNat < s.cfg.modeAttempts.toNat
    else s.pe.attempt.toNat ≤ s.cfg.modeAttempts.toNat :=
  h.2 (by simp [inRetry, hq, hm])

/-- At least one attempt is allowed (00_scope.md R7). -/
theorem Config.one_le_modeAttempts {c : Config} (h : c.wf = true) : 1 ≤ c.modeAttempts.toNat := by
  simp only [Config.wf, Config.boundsOk, Bool.and_eq_true, decide_eq_true_eq] at h
  tauto

/-- A transition that starts has made no attempt. -/
theorem callSetMode_bounded {s : State} (hw : s.cfg.wf = true) (m : Main) : CountersBounded (s.callSetMode m) :=
  .of_transition (by simp) fun _ => Config.one_le_modeAttempts hw

/-- A poll that starts has made none. -/
theorem armWait_bounded {s : State} (hw : s.cfg.wf = true) (m : Main) : CountersBounded (s.armWait m) := by
  refine ⟨fun hc _ => ?_, attemptsBounded_of_main (by simp)⟩
  have hc : s.cfg.completionMode = .poll := (s.armWait_frame m).1 ▸ hc
  rw [State.armWait_eq, hc]
  exact Config.one_le_retryBound hw

/-! ## Transactions and the line -/

theorem devRead_sameLine {a : Addr} {n : Nat} {s t : State} {bs : List Byte} (hw : s.cfg.wf = true)
    (h : devRead a n s = .done bs t) : SameLine s t := by
  by_cases ha : a = s.cfg.aFifo
  · rw [devRead, if_pos ha] at h
    obtain ⟨-, -, rfl⟩ := devFifoRead_done h
    exact sameLine_putReg _ _ (Config.named_ne hw 6 10 (by decide))
  · have hd := devRead_keepsDevice ha h
    unfold devRead devRegRead at h
    rw [if_neg ha] at h
    split at h
    · split at h <;> cases h <;> exact .of_dev
    · cases h

theorem devRegWrite_observed (a : Addr) (v : Byte) (s : State) : Observed s (devRegWrite a v s) := by
  unfold devRegWrite
  split
  · exact observed_setFlags ..
  · next ha =>
    split
    · exact (sameLine_putReg s _ ha).observed.andSame .of_dev
    · exact (sameLine_putReg s _ ha).observed

theorem devWrite_observed {a : Addr} {d : List Byte} {s t : State} {bs : List Byte} (hw : s.cfg.wf = true)
    (h : devWrite a d s = .done bs t) : Observed s t := by
  unfold devWrite at h
  split at h
  · obtain ⟨-, -, rfl⟩ := devFifoWrite_done h
    exact (SameLine.mk rfl rfl rfl).andObserved (sameLine_putReg _ _ (Config.named_ne hw 6 10 (by decide))).observed
  · split at h
    · cases h; exact devRegWrite_observed ..
    · cases h

theorem busBroken_observed (s : State) : Observed s s.busBroken := by
  dsimp only [State.busBroken]
  split
  · next h => exact (SameLine.mk h rfl rfl).observed
  · next h => exact observed_observeIrq rfl rfl h

theorem failTxn_observed (s : State) (k : BusKind) (a : Addr) (d : List Byte) : Observed s (s.failTxn k a d) :=
  (SameLine.andObserved .of_dev (busBroken_observed (s.log k a (d.take s.freeCount) true))).andSame .of_dev

/-- However a transaction ends, it does what `TxnEffect` says, and the line is observed exactly if the flags register
changed. -/
def Txn.Observing (s : State) : Txn → Prop
  | .done _ t | .failed t => TxnEffect s t ∧ Observed s t
  | .fault _ | .refused _ => True

theorem busRead_observing {s : State} (hw : s.cfg.wf = true) (a : Addr) (n : Nat) : (busRead a n s).Observing s := by
  unfold busRead
  split
  · exact ⟨.rfl' s, .rfl' s⟩
  next hf =>
  split
  · trivial
  next ho =>
  split
  · next hx => exact ⟨txnEffect_fail (by simpa using hf) ho hx .., failTxn_observed ..⟩
  split
  · next h =>
    exact ⟨txnEffect_close (devRead_effect h).1 (by simpa using hf) ho ..,
      (devRead_sameLine hw h).observed.andSame .of_dev⟩
  · trivial
  · trivial

theorem busWrite_observing {s : State} (hw : s.cfg.wf = true) (a : Addr) (d : List Byte) :
    (busWrite a d s).Observing s := by
  unfold busWrite
  split
  · exact ⟨.rfl' s, .rfl' s⟩
  next hf =>
  split
  · trivial
  next ho =>
  split
  · next hx => exact ⟨txnEffect_fail (by simpa using hf) ho hx .., failTxn_observed ..⟩
  split
  · next h =>
    exact ⟨txnEffect_close (devWrite_effect h) (by simpa using hf) ho .., (devWrite_observed hw h).andSame .of_dev⟩
  · trivial
  · trivial

/-! ## Micro-steps -/

/-- What a step does to the interrupt line and to the bounds. -/
structure Advance (s t : State) : Prop where
  line : LineEffect s t
  bounds : CountersBounded s → CountersBounded t

theorem Advance.of_same {s t : State} (hl : SameLine s t := by exact .of_dev) (hc : t.cfg = s.cfg := by rfl)
    (hq : t.seq = s.seq := by rfl) (hp : t.pe = s.pe := by rfl) : Advance s t :=
  ⟨(LineEffect.rfl' s).andSame hl, fun h => h.congr hc hq hp⟩

/-- A micro-step that goes on does what `Advance` says; one that ends its operation, at which the sequencer becomes idle,
what it says of the line. -/
def Post.advance (s : State) : Post :=
  ⟨Advance s, fun _ => LineEffect s, fun _ => LineEffect s, fun _ => True, fun _ => True⟩

/-- On to a main step that is no wait. -/
theorem LineEffect.goesTo {s t : State} (h : LineEffect s t) {x : ModeCode} {p : PeRegs} {m : Main}
    (hm : waits m = false := by rfl) : Advance s { t with modeShadow := x, pe := p, seq := ⟨m, .none⟩ } :=
  ⟨h.andSame .of_dev, fun _ => .of_main rfl hm⟩

theorem LineEffect.callSetMode {s t : State} (h : LineEffect s t) (hw : t.cfg.wf = true) (m : Main) :
    Advance s (t.callSetMode m) :=
  ⟨h.andSame .of_dev, fun _ => callSetMode_bounded hw m⟩

theorem LineEffect.armWait {s t : State} (h : LineEffect s t) (hw : t.cfg.wf = true) (m : Main) :
    Advance s (t.armWait m) :=
  ⟨h.andSame (.of_dev (by simp) (by simp) (by simp) (by simp)), fun _ => armWait_bounded hw m⟩

theorem Txn.andThen_advance {x : Txn} {s u : State} {k : List Byte → State → Micro} (hx : x.Observing u)
    (hu : Prelude s u) (hk : ∀ bs t, TxnEffect u t → LineEffect s t → (k bs t).Sat (.advance s)) :
    (x.andThen k).Sat (.advance s) := by
  cases x with
  | done bs t => exact hk bs t hx.1 (hu.lineEffect hx.2.lineEffect)
  | failed t => exact hu.lineEffect hx.2.lineEffect
  | fault f => trivial
  | refused r => trivial

theorem toNat_add_one_le {w : Nat} {x b : BitVec w} (h : x.toNat < b.toNat) : (x + 1).toNat ≤ b.toNat := by
  have h1 : (1 : BitVec w).toNat ≤ 1 := (BitVec.toNat_ofNat ..).trans_le (Nat.mod_le ..)
  calc
    (x + 1).toNat ≤ x.toNat + (1 : BitVec w).toNat := (BitVec.toNat_add ..).trans_le (Nat.mod_le ..)
    _ ≤ b.toNat := by omega

section
variable {s : State} (hw : s.cfg.wf = true)
include hw

theorem readReg_advance {a : Addr} {u : State} {k : Byte → State → Micro}
    (hk : ∀ b t, TxnEffect u t → LineEffect s t → (k b t).Sat (.advance s)) (hu : Prelude s u := by exact .rfl' _)
    (hc : u.cfg = s.cfg := by rfl) : (readReg a u k).Sat (.advance s) :=
  Txn.andThen_advance (busRead_observing (hc ▸ hw) a 1) hu fun _ => hk _

theorem writeReg_advance {a : Addr} {v : Byte} {k : State → Micro}
    (hk : ∀ t, TxnEffect s t → LineEffect s t → (k t).Sat (.advance s)) : (writeReg a v s k).Sat (.advance s) :=
  Txn.andThen_advance (busWrite_observing hw a [v]) (.rfl' s) fun _ => hk

theorem burstRead_advance {a : Addr} {n : Nat} {k : List Byte → State → Micro}
    (hk : ∀ bs t, LineEffect s t → (k bs t).Sat (.advance s)) : ((busRead a n s).andThen k).Sat (.advance s) :=
  Txn.andThen_advance (busRead_observing hw a n) (.rfl' s) fun bs t _ => hk bs t

theorem burstWrite_advance {a : Addr} {d : List Byte} {k : List Byte → State → Micro}
    (hk : ∀ bs t, LineEffect s t → (k bs t).Sat (.advance s)) : ((busWrite a d s).andThen k).Sat (.advance s) :=
  Txn.andThen_advance (busWrite_observing hw a d) (.rfl' s) fun bs t _ => hk bs t

/-- A mode transition that is retried counts an attempt in its first step and starts over only below the bound. -/
theorem setModeStep_advance {target : ModeCode} {retry : Bool} {k : State → Micro}
    (hr : s.seq.main ≠ .mCmd → retry = true)
    (hk : ∀ t, t.cfg = s.cfg → LineEffect s t → (k t).Sat (.advance s)) :
    (setModeStep target retry s k).Sat (.advance s) := by
  unfold setModeStep
  split
  · next hq =>
    refine readReg_advance hw (fun v t ht hl => ⟨hl.andSame .of_dev, fun h => .of_transition nofun fun hm => ?_⟩)
      ⟨rfl, rfl, rfl, id⟩
    have hm : s.seq.main ≠ .mCmd := congrArg Seq.main ht.seq ▸ hm
    have hlt : s.pe.attempt.toNat < s.cfg.modeAttempts.toNat := by simpa [hq] using h.attempts (by simp [hq]) hm
    show t.pe.attempt.toNat ≤ t.cfg.modeAttempts.toNat
    rw [ht.pe, ht.cfg, if_pos (hr hm)]
    exact toNat_add_one_le hlt
  · next hq =>
    refine writeReg_advance hw fun t ht hl => ⟨hl.andSame .of_dev, fun h => .of_transition nofun fun hm => ?_⟩
    have hm : s.seq.main ≠ .mCmd := congrArg Seq.main ht.seq ▸ hm
    show t.pe.attempt.toNat ≤ t.cfg.modeAttempts.toNat
    rw [ht.pe, ht.cfg]
    simpa [hq] using h.attempts (by simp [hq]) hm
  · refine readReg_advance hw fun r t ht hl => ?_
    split
    · exact hk _ ht.cfg (hl.andSame .of_dev)
    · split
      · next hlt => exact ⟨hl.andSame .of_dev, fun _ => .of_transition nofun fun _ => hlt.2⟩
      · exact hl.andSame .of_dev
  · trivial

/-- A poll goes on only below its bound; an interrupt wait is not counted. -/
theorem waitStep_advance {bit : Byte} {timeout : Err} {k : State → Micro} (hq : s.seq.sub = .none)
    (hk : ∀ t, LineEffect s t → (k t).Sat (.advance s)) : (waitStep bit timeout s k).Sat (.advance s) := by
  have hstay : ∀ t : State, t.seq = s.seq → AttemptsBounded t := fun t e =>
    attemptsBounded_of_main ((congrArg Seq.sub e).trans hq)
  unfold waitStep
  split
  · next hc =>
    refine readReg_advance hw fun f t ht hl => ?_
    dsimp only
    split
    · exact hk _ (hl.andSame .of_dev)
    · split
      · exact hl.andSame .of_dev
      · next hne =>
        refine ⟨hl.andSame .of_dev, fun h => ⟨fun _ hwait => ?_, hstay _ ht.seq⟩⟩
        have hlt : s.pe.cnt.toNat < s.cfg.retryBound.toNat := h.1 hc (ht.seq ▸ hwait)
        have hle : (t.pe.cnt + 1).toNat ≤ t.cfg.retryBound.toNat := by
          rw [ht.pe, ht.cfg]
          exact toNat_add_one_le hlt
        exact lt_of_le_of_ne hle fun e => hne (BitVec.eq_of_toNat_eq e)
  · next hc =>
    unfold irqStep
    split
    · refine readReg_advance hw (fun f t ht hl => ?_) ⟨rfl, rfl, rfl, nofun⟩
      dsimp only
      split
      · exact hk _ (hl.andSame .of_dev)
      · refine ⟨hl.andSame .of_dev, fun _ => ⟨fun hp => ?_, hstay _ ht.seq⟩⟩
        have hirq : t.cfg.completionMode = .irq := ht.cfg ▸ hc
        cases hirq.symm.trans hp
    · split
      · exact LineEffect.rfl' s
      · exact Advance.of_same

theorem ensureStandby_advance {m next : Main} (hn : waits next = false := by rfl) :
    Advance s (ensureStandby m next s) := by
  unfold ensureStandby
  split
  · exact (LineEffect.rfl' s).goesTo hn
  · exact (LineEffect.rfl' s).callSetMode hw m

/-! ## The body of each command -/

theorem rdregBody_advance (a : Addr) : (rdregBody a s).Sat (.advance s) := by
  unfold rdregBody
  split
  · exact readReg_advance hw fun _ _ _ hl => hl
  · trivial

theorem wrregBody_advance (a : Addr) (d : Byte) : (wrregBody a d s).Sat (.advance s) := by
  unfold wrregBody
  split
  · exact writeReg_advance hw fun _ _ hl => hl
  · trivial

theorem rdburstBody_advance (a : Addr) (n : Byte) : (rdburstBody a n s).Sat (.advance s) := by
  unfold rdburstBody
  split
  · split
    · exact (LineEffect.rfl' s).andSame .of_dev
    · exact burstRead_advance hw fun _ _ hl => hl.andSame .of_dev
  · trivial

theorem wrburstBody_advance (a : Addr) (n : Byte) : (wrburstBody a n s).Sat (.advance s) := by
  unfold wrburstBody
  split
  · split
    · exact LineEffect.rfl' s
    · exact burstWrite_advance hw fun _ _ hl => hl
  · trivial

theorem rmwBody_advance {a : Addr} {mask val : Byte} {pos : Nat} {commit : State → State}
    (hc : ∀ t, SameLine t (commit t)) : (rmwBody a mask pos val commit s).Sat (.advance s) := by
  unfold rmwBody
  split
  · exact readReg_advance hw fun _ _ _ hl => hl.goesTo
  · exact writeReg_advance hw fun t _ hl => hl.andSame (hc t)
  · trivial

theorem setpreBody_advance (n : BitVec 16) : (setpreBody n s).Sat (.advance s) := by
  unfold setpreBody
  split
  · exact writeReg_advance hw fun _ _ hl => hl.goesTo
  · exact writeReg_advance hw fun _ _ hl => hl.andSame .of_dev
  · trivial

theorem setfreqBody_advance (f : Word32) : (setfreqBody f s).Sat (.advance s) := by
  unfold setfreqBody
  split
  · exact writeReg_advance hw fun _ _ hl => hl.goesTo
  · exact writeReg_advance hw fun _ _ hl => hl.goesTo
  · exact writeReg_advance hw fun _ _ hl => hl.andSame .of_dev
  · trivial

theorem setpwrBody_advance (p : Byte) : (setpwrBody p s).Sat (.advance s) := by
  unfold setpwrBody
  split
  · exact writeReg_advance hw fun _ _ hl => hl.goesTo
  · exact writeReg_advance hw fun _ _ hl => hl.andSame .of_dev
  · trivial

theorem getBody_advance (a : Addr) (field : Byte → Word32) : (getBody a field s).Sat (.advance s) := by
  unfold getBody
  split
  · exact readReg_advance hw fun _ _ _ hl => hl
  · trivial

theorem getpreBody_advance : (getpreBody s).Sat (.advance s) := by
  unfold getpreBody
  split
  · exact readReg_advance hw fun _ _ _ hl => hl.goesTo
  · exact readReg_advance hw fun _ _ _ hl => hl
  · trivial

theorem getfreqBody_advance : (getfreqBody s).Sat (.advance s) := by
  unfold getfreqBody
  split
  · exact readReg_advance hw fun _ _ _ hl => hl.goesTo
  · exact readReg_advance hw fun _ _ _ hl => hl.goesTo
  · exact readReg_advance hw fun _ _ _ hl => hl
  · trivial

/-- SETMODE's transition is not retried, and the bound does not speak of it. -/
theorem setmodeBody_advance (m : ModeCode) : (setmodeBody m s).Sat (.advance s) := by
  unfold setmodeBody
  split
  · next hq => exact setModeStep_advance hw (absurd hq) fun _ _ hl => hl
  · trivial

theorem initBody_advance : (initBody s).Sat (.advance s) := by
  unfold initBody
  split
  case h_1 => exact (initPulse_lineEffect s).goesTo
  case h_2 => exact writeReg_advance hw fun _ _ hl => hl.goesTo
  case h_3 =>
    refine readReg_advance hw fun r t _ hl => ?_
    split
    · exact hl.goesTo
    · exact hl.andSame .of_dev
  case h_4 => exact writeReg_advance hw fun _ _ hl => hl.goesTo
  case h_5 => exact writeReg_advance hw fun _ ht hl => hl.callSetMode (ht.cfg ▸ hw) _
  case h_6 => exact setModeStep_advance hw (fun _ => rfl) fun _ _ hl => hl
  case h_7 => trivial

theorem peTransmit_advance : (peTransmit s).Sat (.advance s) := by
  unfold peTransmit
  split
  case h_1 => exact ensureStandby_advance hw
  case h_2 => exact setModeStep_advance hw (fun _ => rfl) fun _ _ hl => hl.goesTo
  case h_3 => exact readReg_advance hw fun _ _ _ hl => hl.goesTo
  case h_4 => exact writeReg_advance hw fun _ _ hl => hl.goesTo
  case h_5 => exact burstWrite_advance hw fun _ _ hl => hl.goesTo
  case h_6 => exact writeReg_advance hw fun _ _ hl => hl.goesTo
  case h_7 hq => exact writeReg_advance hw fun _ ht hl => (hl.cleared hq).callSetMode (ht.cfg ▸ hw) _
  case h_8 => exact setModeStep_advance hw (fun _ => rfl) fun _ hc hl => hl.armWait (hc ▸ hw) _
  case h_9 hq => exact waitStep_advance hw (by rw [hq]) fun _ hl => hl.goesTo
  case h_10 => exact writeReg_advance hw fun _ ht hl => hl.callSetMode (ht.cfg ▸ hw) _
  case h_11 => exact setModeStep_advance hw (fun _ => rfl) fun _ _ hl => hl
  case h_12 => trivial

theorem peReceive_advance : (peReceive s).Sat (.advance s) := by
  have hconsumed : LineEffect s { s with irqLatch := false } :=
    Prelude.lineEffect (u := { s with irqLatch := false }) ⟨rfl, rfl, rfl, nofun⟩ (.rfl' _)
  unfold peReceive
  split
  case h_1 => exact ensureStandby_advance hw
  case h_2 => exact setModeStep_advance hw (fun _ => rfl) fun _ _ hl => hl.goesTo
  case h_3 => exact hconsumed.callSetMode hw _
  case h_4 => exact setModeStep_advance hw (fun _ => rfl) fun _ hc hl => hl.armWait (hc ▸ hw) _
  case h_5 hq => exact waitStep_advance hw (by rw [hq]) fun _ hl => hl.goesTo
  case h_6 => exact (LineEffect.rfl' s).goesTo (by split <;> rfl)
  case h_7 => exact readReg_advance hw fun _ _ _ hl => hl.goesTo
  case h_8 => exact readReg_advance hw fun _ _ _ hl => hl.goesTo
  case h_9 => exact writeReg_advance hw fun _ _ hl => hl.goesTo
  case h_10 =>
    split
    · exact (LineEffect.rfl' s).goesTo
    · exact burstRead_advance hw fun _ _ hl => hl.goesTo
  case h_11 => exact writeReg_advance hw fun _ ht hl => hl.callSetMode (ht.cfg ▸ hw) _
  case h_12 =>
    refine setModeStep_advance hw (fun _ => rfl) fun t _ hl => ?_
    split
    · exact hl
    · exact hl
  case h_13 => trivial

theorem envelopeOf_body_advance {i : Instr} (hi : usesEnvelope i = true) :
    ((envelopeOf s.cfg i).body s).Sat (.advance s) := by
  cases i with
  | rdreg a => exact rdregBody_advance hw a
  | wrreg a d => exact wrregBody_advance hw a d
  | rdburst a n => exact rdburstBody_advance hw a n
  | wrburst a n => exact wrburstBody_advance hw a n
  | setsf | setbw | setcr | setcrc => exact rmwBody_advance hw fun _ => .of_dev
  | setpre n => exact setpreBody_advance hw n
  | setfreq f => exact setfreqBody_advance hw f
  | setpwr d => exact setpwrBody_advance hw _
  | getsf | getbw | getcr | getcrc => exact getBody_advance hw _ _
  | getpre => exact getpreBody_advance hw
  | getfreq => exact getfreqBody_advance hw
  | setmode m => exact setmodeBody_advance hw m
  | init => exact initBody_advance hw
  | transmit len => exact Micro.onDone_sat (peTransmit_advance hw)
  | receive =>
    exact Micro.onDone_sat ((peReceive_advance hw).mono (fun _ => id) (fun _ _ hl => hl.andSame .of_dev) (fun _ _ => id)
      (fun _ => id) (fun _ => id))
  | ismode | schstart | busRd | busWr => cases hi

end

/-! ## The executor -/

/-- What a command adds on an error touches the port and the count of free values only. -/
theorem envelopeOf_onErr_parts (c : Config) (i : Instr) (e : Err) (s : State) :
    ∃ p d, (envelopeOf c i).onErr e s = { s with host := p, drawn := d } := by
  cases i with
  | rdburst a n =>
    obtain ⟨p, d, h, -⟩ := rdburstOnErr_parts e s
    exact ⟨p, d, h⟩
  | _ => exact ⟨_, _, rfl⟩

/-- The operation has ended: the sequencer is idle. -/
theorem LineEffect.ends {s t u : State} (h : LineEffect s t) (hu : SameLine t u := by exact .of_dev)
    (hq : u.seq = .idle := by rfl) : Advance s u :=
  ⟨h.andSame hu, fun _ => .of_main hq rfl⟩

theorem startSeq_bounded {i : Instr} {s : State} (hq : s.seq = startSeq i) : CountersBounded s := by
  cases i with
  | setmode m => exact .of_transition (by simp [hq, startSeq]) fun hm => absurd (congrArg Seq.main hq) hm
  | _ => exact .of_main hq rfl

theorem failUnlocked_advance (c : Config) (i : Instr) (e : Err) (s : State) :
    Advance s ((envelopeOf c i).failUnlocked e s) := by
  obtain ⟨p, d, h⟩ := envelopeOf_onErr_parts c i e (s.raiseHost e)
  rw [Envelope.failUnlocked, h]
  exact .of_same

theorem enter_advance (c : Config) (i : Instr) (s : State) : Advance s ((envelopeOf c i).enter s) := by
  unfold Envelope.enter
  split
  · exact failUnlocked_advance ..
  · split
    · exact failUnlocked_advance ..
    · exact .of_same

theorem await_advance {i : Instr} (hi : usesEnvelope i = true) (c : Config) (d : Option Word32) (s : State) :
    Advance s ((envelopeOf c i).await d s) := by
  unfold Envelope.await
  split
  · split
    · exact failUnlocked_advance ..
    · rw [envelopeOf_start hi]
      exact ⟨(LineEffect.rfl' s).andSame .of_dev, fun _ => startSeq_bounded rfl⟩
  · split
    · exact failUnlocked_advance ..
    · exact .of_same

theorem bodyStep_advance {i : Instr} {s t : State} (hw : s.cfg.wf = true) (hi : usesEnvelope i = true)
    (hp : s.host.pos = .e3) (h : exec i s = .next t) : Advance s t := by
  have hb := envelopeOf_body_advance hw hi
  rw [exec_at_e3 hi hp] at h
  cases hm : (envelopeOf s.cfg i).body s with
  | cont u => rw [hm] at h hb; cases h; exact hb
  | done r u => rw [hm] at h hb; cases h; exact LineEffect.ends hb
  | raise e u =>
    rw [hm] at h hb
    cases h
    obtain ⟨p, d, he⟩ := envelopeOf_onErr_parts s.cfg i e (u.endedErr e)
    show Advance s ((envelopeOf s.cfg i).onErr e (u.endedErr e))
    rw [he]
    exact LineEffect.ends hb
  | fault f => rw [hm] at h; cases h
  | refused r => rw [hm] at h; cases h

theorem busPortEnd_advance {x : Txn} {s t : State} (hx : x.Observing s) (h : busPortEnd x = .next t) : Advance s t := by
  have closes : ∀ u bs, TxnEffect s u ∧ Observed s u → Advance s (u.closeBus bs) := fun u bs hu =>
    ⟨hu.2.lineEffect.andSame .of_dev, fun hb => hb.congr hu.1.cfg hu.1.seq hu.1.pe⟩
  cases x with
  | done bs u => cases h; exact closes u bs hx
  | failed u => cases h; exact closes u [] hx
  | fault f => cases h
  | refused r => cases h

theorem exec_advance {i : Instr} {s t : State} (hw : s.cfg.wf = true) (h : exec i s = .next t) : Advance s t := by
  by_cases hi : usesEnvelope i = true
  · cases hp : s.host.pos with
    | e0 => rw [exec_at_e0 hi hp] at h; cases h; exact enter_advance ..
    | e2 d => rw [exec_at_e2 hi hp] at h; cases h; exact await_advance hi ..
    | e3 => exact bodyStep_advance hw hi hp h
  · cases i with
    | ismode m => cases h; exact .of_same
    | schstart m => cases h; exact .of_same
    | busRd a =>
      by_cases hn : s.busPort.want = 0
      · cases (exec_busRd_none hn).symm.trans h; exact .of_same
      · exact busPortEnd_advance (busRead_observing hw ..) ((if_neg hn).symm.trans h)
    | busWr a =>
      by_cases hn : s.busPort.out = []
      · cases (exec_busWr_none hn).symm.trans h; exact .of_same
      · exact busPortEnd_advance (busWrite_observing hw ..) ((if_neg hn).symm.trans h)
    | _ => exact absurd rfl hi

theorem executorStep_advance {s t : State} (hw : s.cfg.wf = true) (h : executorStep s = .next t) : Advance s t := by
  unfold executorStep at h
  split at h
  · split at h
    · exact exec_advance hw h
    · cases h; exact .of_same
  · cases h; exact .of_same

/-! ## The senders -/

theorem SendStep.advance {i : Sid} {s t : State} (hw : s.cfg.wf = true) (h : SendStep i s t) : Advance s t := by
  have hm := peTransmit_advance hw
  cases h with
  | faulted => exact (LineEffect.rfl' s).ends
  | goesOn t h => rw [h] at hm; exact hm
  | returns r t h => rw [h] at hm; exact LineEffect.ends hm
  | raises e t h => rw [h] at hm; exact LineEffect.ends hm

theorem senderWaitlock_advance (i : Sid) (k : Bool) (s : State) : Advance s (senderWaitlock i k s) := by
  unfold senderWaitlock
  split
  · exact .of_same
  · split
    · exact .of_same
    · exact .of_same

theorem senderWake_advance (i : Sid) (s : State) : Advance s (senderWake i s) := by
  dsimp only [senderWake]
  split
  · exact .of_same
  · exact .of_same

theorem senderStep_advance {i : Sid} {k : Bool} {s t : State} (hw : s.cfg.wf = true) (h : senderStep i k s = .next t) :
    Advance s t := by
  cases hp : (s.senders.get i).phase with
  | sending => exact (senderStep_sendStep hp h).advance hw
  | off => rw [senderStep, hp] at h; cases h; exact .of_same
  | sleeping => rw [senderStep, hp] at h; cases h; exact senderWake_advance i s
  | waitlock => rw [senderStep, hp] at h; cases h; exact senderWaitlock_advance i k s
  | copy =>
    rw [senderStep, hp] at h
    cases h
    exact ⟨(LineEffect.rfl' s).andSame .of_dev, fun _ => .of_main rfl rfl⟩
  | release => rw [senderStep, hp] at h; cases h; exact .of_same

/-! ## The agents outside the bus, and one step -/

theorem OnlyDevice.advance {s t : State} (h : OnlyDevice s t) (g : Observed s t) : Advance s t := by
  refine ⟨g.lineEffect, fun hb => ?_⟩
  obtain ⟨d, l, p, rfl⟩ := h
  exact hb.congr rfl rfl rfl

theorem OutsideEffect.advance {e : Event} {s t : State} (h : OutsideEffect e s t) (hm : movesDevice s.cfg e = false) :
    Advance s t := by
  obtain ⟨hd, hl, hp⟩ := h.device hm
  exact .of_same (.of_dev h.cfg hd hl hp) h.cfg h.seq h.pe

theorem devModeGlitch_observed {s : State} (hw : s.cfg.wf = true) (v : Byte) : Observed s (devModeGlitch v s) := by
  unfold devModeGlitch
  split
  · exact (sameLine_putReg s v (Config.named_ne hw 1 10 (by decide))).observed
  · exact .rfl' s

theorem devFlag_observed (b : BitVec 3) (s : State) : Observed s (devFlag b s) := by
  unfold devFlag
  split
  · exact observed_setFlags ..
  · exact .rfl' s

/-- The draw of the bus has no part in it. -/
theorem Advance.of_draw {s t : State} {f : Bool} (h : Advance { s with busFails := f } t) : Advance s t :=
  ⟨⟨h.line.latched, h.line.edge, h.line.level, h.line.kept⟩, h.bounds⟩

/-- Every move but the reset input's. -/
theorem runEvent_advance {e : Event} {s t : State} (hw : s.cfg.wf = true) (hr : isRst e = false)
    (h : runEvent e s = .next t) : Advance s t := by
  cases e with
  | exec f => exact Advance.of_draw (f := f) (executorStep_advance hw h)
  | sender i k f => exact Advance.of_draw (f := f) (senderStep_advance hw h)
  | devTxDone => cases h; exact (devTxDone_onlyDevice s).advance (devTxDone_observed hw)
  | devRxDone a b ok => cases h; exact (devRxDone_onlyDevice a b ok s).advance (devRxDone_observed hw a b ok)
  | devModeGlitch v => cases h; exact (devModeGlitch_onlyDevice v s).advance (devModeGlitch_observed hw v)
  | devFlag b => cases h; exact (devFlag_onlyDevice b s).advance (devFlag_observed b s)
  | present w => cases h; exact (hostPresent_outside w s).advance rfl
  | hbufWrite k b => cases h; exact (hostWriteBuf_outside k b s).advance rfl
  | snapWrite i b => cases h; exact (snapWrite_outside i b s).advance rfl
  | tick => cases h; exact (clockTick_outside s).advance rfl
  | rst => cases hr

/-- Settles O47: `setFlags` observes the line, and a step is a `LineEffect` whatever agent moves. -/
theorem interruptEdges : Obligations.InterruptEdges := by
  unfold Obligations.InterruptEdges
  refine ⟨fun s v => ⟨s.flags_setFlags v, s.edges_setFlags v, fun h => if_pos h⟩, fun s t e rest hw h hr hs => ?_⟩
  have hl := (runEvent_advance (s := { s with env := rest }) hw hr ((step_nextMove h).symm.trans hs)).line
  exact ⟨hl.latched, hl.edge, hl.level, hl.kept⟩

/-- The choice of the next move leaves the configuration and the counters alone. -/
theorem nextEvent_bounded {s : State} (h : CountersBounded s) :
    CountersBounded (nextEvent s).2 ∧ (nextEvent s).2.cfg = s.cfg := by
  unfold nextEvent
  split
  · exact ⟨h, rfl⟩
  · exact ⟨h, rfl⟩

/-- After the reset input's pulse the sequencer is idle; every other move is an `Advance`. -/
theorem runEvent_bounded {e : Event} {s t : State} (hw : s.cfg.wf = true) (hb : CountersBounded s)
    (h : runEvent e s = .next t) : CountersBounded t := by
  cases hr : isRst e with
  | false => exact (runEvent_advance hw hr h).bounds hb
  | true =>
    cases e with
    | rst => cases h; exact .of_main rfl rfl
    | _ => cases hr

/-- Settles O60: a step finishes the open bracket, or is the move of one agent. -/
theorem stepKeepsBounds : Obligations.StepKeepsBounds := by
  unfold Obligations.StepKeepsBounds
  intro s t hw hp ha hs
  obtain ⟨hb, hc⟩ := nextEvent_bounded ⟨hp, ha⟩
  cases hport : s.busPort.addrByte with
  | some b => exact (exec_advance hw ((step_of_bracket hport).symm.trans hs)).bounds ⟨hp, ha⟩
  | none =>
    have hrun : runEvent (nextEvent s).1 (nextEvent s).2 = .next t := by rw [← hs, step, hport]
    exact runEvent_bounded (hc ▸ hw) hb hrun

end Sys2Proof.Machine
end

section
namespace Sys2Proof.Machine

/-! The reset input's pulse, element by element (70_reset_and_hazards.md R310, 10_state.md R54). -/

theorem Five.get_fiveOf {α : Type} (f : Sid → α) (i : Sid) : (fiveOf f).get i = f i := by
  cases i <;> rfl

/-- Only the buffer, which R54 leaves unspecified, is not the reset sender's. -/
theorem blockReset_sender (s : State) (i : Sid) :
    (blockReset s).senders.get i = { resetSender s.cfg i with buf := rstSenderBuf s i } := by
  calc (blockReset s).senders.get i
      = { (fiveOf (resetSender s.cfg)).get i with buf := rstSenderBuf s i } := Five.get_imap ..
    _ = { resetSender s.cfg i with buf := rstSenderBuf s i } := by rw [Five.get_fiveOf]

theorem blockReset_snap (s : State) (i : Sid) :
    (blockReset s).snap.get i = List.replicate (s.cfg.recLen.get i) 0 :=
  Five.get_fiveOf ..

/-- Settles O50: the step is `blockReset`, which leaves the device and the configuration, takes the single elements
from the reset state, and gives each sender and each record its own reset value. -/
theorem blockResetRestoresTheBlock : Obligations.BlockResetRestoresTheBlock := by
  unfold Obligations.BlockResetRestoresTheBlock
  intro s rest h
  have hstep : step s = .next (blockReset { s with env := rest }) := step_nextMove h
  refine ⟨_, hstep, rfl, rfl, rfl, rfl, rfl, rfl, rfl, rfl, rfl, rfl, rfl, rfl, rfl, rfl, rfl, rfl, rfl, rfl, rfl, rfl,
    rfl, rfl, rfl, rfl, fun i => ?_⟩
  rw [blockReset_sender]
  exact ⟨rfl, rfl, rfl, rfl, blockReset_snap _ i⟩

end Sys2Proof.Machine
end
